-- ==== Sys2Proof/Word.lean ====
section
/-! DEFINITION. The block's elementary values: a symbol is one bit (R10), an operation word is 16 bits (R76). -/

namespace Sys2Proof

/-- A symbol: one bit (R10, D2). A value other than 0 or 1 cannot be expressed (R182, U16). -/
abbrev Symbol := Bool

/-- An operation word (R76): `op` in bits 15:11, `arg` in bits 10:0. -/
abbrev OpWord := BitVec 16

/-- The `arg` field of an operation word (R76). -/
abbrev Arg := BitVec 11

/-- 152 symbols, bit k being symbol k (R33, R53): a Frame's data or a raw payload. -/
abbrev FrameBits := BitVec 152

/-- 76 bits, bit i being decoded bit i or its error flag (R34, R53). -/
abbrev DecodedBits := BitVec 76

end Sys2Proof
end

