-- ==== Sys2Proof/Syntax.lean ====
section
/-! DEFINITION. The operations, one constructor per row of `spec/opcode_table.json` (R2, R77), each with every
operand field of its word. A word that breaks its layout is still an operation with a meaning (`Err(BadOperand)`,
R80), so the reserved bits are operands too. -/

namespace Sys2Proof

/-- The nineteen operations. Operands that R79 lets the abstract operation take beyond its word field are naturals. -/
inductive Instr where
  /-- CREATE (R181): bits 10:4, the ChannelKind code, the Band code. -/
  | create (rsv : BitVec 7) (kind band : BitVec 2)
  /-- FEED (R182): the number of symbols that follow. -/
  | feed (n : Nat)
  /-- PROCESS (R180). -/
  | process (arg : Arg)
  /-- GET_SCR (R183). -/
  | getScr (arg : Arg)
  /-- SET_SCR (R184): bits 10:8, the auto flag, the value. -/
  | setScr (rsv : BitVec 3) (auto : Bool) (v : Nat)
  /-- GET_SCR_CONFIDENCE (R185). -/
  | getScrConfidence (arg : Arg)
  /-- SET_SCR_CONFIDENCE (R186): the new margin. -/
  | setScrConfidence (n : Nat)
  /-- MARKER_CMP (R100); its operand p is passed inside the block. -/
  | markerCmp (arg : Arg)
  /-- SYNC_ACQ (R101). -/
  | syncAcq (arg : Arg)
  /-- EXTRACT (R110). -/
  | extract (arg : Arg)
  /-- DIFFDEC1 (R111); its operand raw is passed inside the block. -/
  | diffDec1 (arg : Arg)
  /-- CHDEC (R121). -/
  | chDec (arg : Arg)
  /-- DEINTERLEAVE (R130). -/
  | deinterleave (arg : Arg)
  /-- DIFFDEC2 (R140). -/
  | diffDec2 (arg : Arg)
  /-- DESCRAMBLE (R151); its operand c is passed inside the block. -/
  | descramble (arg : Arg)
  /-- SCRDETECT (R161). -/
  | scrDetect (arg : Arg)
  /-- PROC_FRAME (R170). -/
  | procFrame (arg : Arg)
  /-- CCH_PROC (R171). -/
  | cchProc (arg : Arg)
  /-- TCH_PROC (R172). -/
  | tchProc (arg : Arg)
deriving DecidableEq, Repr

/-- The twelve internal operations (R2): format I, bit 15 set (R76). -/
def Instr.isInternal : Instr → Bool
  | .create _ _ _ => false
  | .feed _ => false
  | .process _ => false
  | .getScr _ => false
  | .setScr _ _ _ => false
  | .getScrConfidence _ => false
  | .setScrConfidence _ => false
  | .markerCmp _ => true
  | .syncAcq _ => true
  | .extract _ => true
  | .diffDec1 _ => true
  | .chDec _ => true
  | .deinterleave _ => true
  | .diffDec2 _ => true
  | .descramble _ => true
  | .scrDetect _ => true
  | .procFrame _ => true
  | .cchProc _ => true
  | .tchProc _ => true

end Sys2Proof
end

