-- ==== Sys2Proof/Decode.lean ====
section
/-! DEFINITION. The operation word: decoding, total on every word and rejecting the reserved `op` values by name
(R76, R77, R79, R80), and the encoder written from the same map. -/

namespace Sys2Proof

/-- Why a word names no operation. -/
inductive DecodeError where
  /-- The `op` value is one R77 does not list (R80). -/
  | reservedOp (op : BitVec 5)
deriving DecidableEq, Repr

/-- `op`, bits 15:11 (R76). -/
def opField (w : OpWord) : BitVec 5 := w.extractLsb' 11 5

/-- `arg`, bits 10:0 (R76). -/
def argField (w : OpWord) : Arg := w.extractLsb' 0 11

/-- The word of an `op` and an `arg` (R76). -/
def opWord (op : BitVec 5) (arg : Arg) : OpWord := op ++ arg

/-- The operation a word names (R77), its operands taken from `arg` as unsigned fields (R79). -/
def decode (w : OpWord) : Except DecodeError Instr :=
  match (opField w).toNat with
  | 0b00001 => .ok (.create ((argField w).extractLsb' 4 7) ((argField w).extractLsb' 2 2) ((argField w).extractLsb' 0 2))
  | 0b00010 => .ok (.feed (argField w).toNat)
  | 0b00011 => .ok (.process (argField w))
  | 0b00100 => .ok (.getScr (argField w))
  | 0b00101 =>
    .ok (.setScr ((argField w).extractLsb' 8 3) ((argField w).getLsbD 7) ((argField w).extractLsb' 0 7).toNat)
  | 0b00110 => .ok (.getScrConfidence (argField w))
  | 0b00111 => .ok (.setScrConfidence (argField w).toNat)
  | 0b10000 => .ok (.markerCmp (argField w))
  | 0b10001 => .ok (.syncAcq (argField w))
  | 0b10010 => .ok (.extract (argField w))
  | 0b10011 => .ok (.diffDec1 (argField w))
  | 0b10100 => .ok (.chDec (argField w))
  | 0b10101 => .ok (.deinterleave (argField w))
  | 0b10110 => .ok (.diffDec2 (argField w))
  | 0b10111 => .ok (.descramble (argField w))
  | 0b11000 => .ok (.scrDetect (argField w))
  | 0b11001 => .ok (.procFrame (argField w))
  | 0b11010 => .ok (.cchProc (argField w))
  | 0b11011 => .ok (.tchProc (argField w))
  | _ => .error (.reservedOp (opField w))

/-- The `op` of an operation (R77). -/
def Instr.op : Instr → BitVec 5
  | .create _ _ _ => 0b00001#5
  | .feed _ => 0b00010#5
  | .process _ => 0b00011#5
  | .getScr _ => 0b00100#5
  | .setScr _ _ _ => 0b00101#5
  | .getScrConfidence _ => 0b00110#5
  | .setScrConfidence _ => 0b00111#5
  | .markerCmp _ => 0b10000#5
  | .syncAcq _ => 0b10001#5
  | .extract _ => 0b10010#5
  | .diffDec1 _ => 0b10011#5
  | .chDec _ => 0b10100#5
  | .deinterleave _ => 0b10101#5
  | .diffDec2 _ => 0b10110#5
  | .descramble _ => 0b10111#5
  | .scrDetect _ => 0b11000#5
  | .procFrame _ => 0b11001#5
  | .cchProc _ => 0b11010#5
  | .tchProc _ => 0b11011#5

/-- The `arg` of an operation (R77). -/
def Instr.arg : Instr → Arg
  | .create rsv kind band => rsv ++ kind ++ band
  | .feed n => BitVec.ofNat 11 n
  | .process a => a
  | .getScr a => a
  | .setScr rsv auto v => rsv ++ (BitVec.ofBool auto ++ BitVec.ofNat 7 v)
  | .getScrConfidence a => a
  | .setScrConfidence n => BitVec.ofNat 11 n
  | .markerCmp a => a
  | .syncAcq a => a
  | .extract a => a
  | .diffDec1 a => a
  | .chDec a => a
  | .deinterleave a => a
  | .diffDec2 a => a
  | .descramble a => a
  | .scrDetect a => a
  | .procFrame a => a
  | .cchProc a => a
  | .tchProc a => a

/-- The word of an operation whose operands fit their fields. -/
def encode (i : Instr) : OpWord := opWord i.op i.arg

/-- The operation the decoder reads from an operation word numbered as the opcode table numbers it: one word of 16
bits, no operand word (R76). -/
def decodeTableWord (nbits w : Nat) : Option Instr :=
  if nbits = 16 ∧ w < 2 ^ 16 then
    match decode (BitVec.ofNat 16 w) with
    | .ok i => some i
    | .error _ => none
  else none

end Sys2Proof
end

