-- ==== Sys2Proof/Machine/Values.lean ====
section
/-! DEFINITION. The enumerations, tagged values, records, results and events the rules speak of
(R13, R33, R34, R75, R78, R83), as types in which an illegal value cannot be written. -/

namespace Sys2Proof.Machine

/-- R21, R75. -/
inductive Band where
  | vhf
  | uhf
deriving DecidableEq, Repr

/-- R22, R75. -/
inductive ChannelKind where
  | control
  | traffic
deriving DecidableEq, Repr

/-- R23, R75. -/
inductive SyncState where
  | notSynced
  | synced
deriving DecidableEq, Repr

/-- The scrambling-constant setting (R13, R27). -/
inductive Scr where
  | auto
  | known (v : Fin 128)
deriving DecidableEq, Repr

/-- A frame number (R13, R26). -/
inductive FrameNo where
  | unknown
  | known (n : Fin 200)
deriving DecidableEq, Repr

/-- The Frame `FR` (R33, R71). -/
structure Frame where
  data : FrameBits
  no : FrameNo
deriving DecidableEq, Repr

/-- The DecodedFrame `DF` (R34, R72): `err` bit i belongs to `data` bit i. -/
structure Decoded where
  data : DecodedBits
  err : DecodedBits
  no : FrameNo
deriving DecidableEq, Repr

/-- The error kinds (R75, R201 to R208). -/
inductive ErrorKind where
  | configError
  | syncNotFound
  | syncLost
  | channelDecodeError
  | frameTypeMismatch
  | crcMismatch
  | unsupportedConfiguration
  | badOperand
  | badOperation
  | noInstance
deriving DecidableEq, Repr

/-- Why CCH_PROC drops a frame: the gate that failed first (R171, R173). -/
inductive DropKind where
  | channelDecodeError
  | frameTypeMismatch
  | crcMismatch
deriving DecidableEq, Repr

/-- The value of PROCESS (R188). -/
inductive Status where
  | idle
  | unsupported
deriving DecidableEq, Repr

/-- The value of SYNC_ACQ (R101). -/
inductive SyncResult where
  | found
  | notFound
deriving DecidableEq, Repr

/-- The value of EXTRACT (R110). -/
inductive ExtractResult where
  | noFrameYet
  | syncLost
  | frame (f : Frame)
deriving DecidableEq, Repr

/-- The value of PROC_FRAME, CCH_PROC and TCH_PROC (R170 to R172). -/
inductive FrameResult where
  | dispatched
  | dropped (k : DropKind)
  | unsupported
deriving DecidableEq, Repr

/-- The result value an operation returns (R78 for the host operations, the operation's own rule for
the internal ones). -/
inductive Result where
  | ok
  | err (k : ErrorKind)
  | consumed (n : Nat)
  | status (p : Status)
  | scr (v : Scr)
  | confidence (n : Nat)
  | mismatches (n : Nat)
  | sync (r : SyncResult)
  | extract (r : ExtractResult)
  | symbols (x : FrameBits)
  | decoded (d : Decoded) (count : Nat)
  | frame (r : FrameResult)
deriving DecidableEq, Repr

/-- The optional diagnostic events (R83, R212). -/
inductive Diag where
  | syncAcquired
  | syncLost
  | frameOk (no : FrameNo) (idx : Fin 4) (st0 st1 : Bool) (scr : Fin 128)
  | frameErr (no : FrameNo) (kind : DropKind) (scr : Fin 128)
  | scrLocked (v : Fin 128)
deriving DecidableEq, Repr

/-- The events (R83). -/
inductive Event where
  | reasmReset
  | reasmDispatch (payload : DecodedBits) (idx : Fin 4)
  | diag (d : Diag)
deriving DecidableEq, Repr

end Sys2Proof.Machine
end

