-- ==== Sys2Proof/Machine/State.lean ====
section
/-! DEFINITION. The state of the block (R20 to R34), the interface of an operation around it (R76, R78, R209), the
reasons a step can stop, and the state after reset. -/

namespace Sys2Proof.Machine

/-- The record s of `Present(s)`: one PhysicalChannel (R20 to R31). -/
structure Channel where
  /-- R21 -/
  band : Band
  /-- R22 -/
  channelKind : ChannelKind
  /-- R23 -/
  syncState : SyncState
  /-- R24 -/
  lastSyncErr : Nat
  /-- R25 -/
  totalSyncErr : Nat
  /-- R26 -/
  frameNo : FrameNo
  /-- R27 -/
  scr : Scr
  /-- R28 -/
  scrGuess : Fin 128
  /-- R29, unbounded (D9) -/
  scrConfidence : Nat
  /-- R30, unbounded (D9) -/
  scrStat : Vector Nat 128
  /-- R31, R51: index 0 is the front -/
  buffer : List Symbol
deriving DecidableEq, Repr

/-- Who presents the operation word: the owner, who may issue host operations only, or the block itself while PROCESS
sequences its internal operations (R2, R76, R80). The model's own (assumption log 2). -/
inductive Issuer where
  | owner
  | block
deriving DecidableEq, Repr

/-- The whole state. -/
structure State where
  /-- `Absent` or `Present(s)` (R20) -/
  inst : Option Channel
  /-- The working register `FR`, while a Frame exists (R32, R33) -/
  fr : Option Frame
  /-- The working register `DF`, while a DecodedFrame exists (R32, R34) -/
  df : Option Decoded
  /-- The operation words the owner issues, first issued first (R61, R76). The model's own (log 1). -/
  opIn : List OpWord
  /-- The symbol input (R76). The model's own (log 1). -/
  symIn : List Symbol
  /-- The model's own (log 2). -/
  issuer : Issuer
  /-- The operand p of MARKER_CMP (R100). The model's own (log 3). -/
  opP : Nat
  /-- The operand c of DESCRAMBLE (R151). The model's own (log 3). -/
  opC : Fin 128
  /-- The operand raw of DIFFDEC1 (R111). The model's own (log 3). -/
  opRaw : FrameBits
  /-- The result value of the last operation, if it returns one (R78). The model's own (log 1). -/
  result : Option Result
  /-- The event list of the last operation, first emitted first (R209). The model's own (log 1). -/
  events : List Event
deriving DecidableEq, Repr

/-- The machine stops with a fault. -/
inductive Fault where
  /-- Raised by MARKER_CMP (and by SYNC_ACQ and EXTRACT through it) when it reads the buffer at an index that BufRead
  is not defined for (R52). PROCESS never raises it (R64). Safe: the spec gives the read no value. -/
  | readOutsideBuffer
deriving DecidableEq, Repr

/-- The machine stops because the operation, as presented, has no meaning. -/
inductive Refusal where
  /-- Raised by an arm of `exec` that has no meaning yet. Safe. -/
  | notModelled (mnemonic : String)
  /-- Raised by DEINTERLEAVE, DIFFDEC2, DESCRAMBLE, CHDEC, SCRDETECT, PROC_FRAME and CCH_PROC, presented by the block
  while no Frame exists: their operand `FR` exists only between an EXTRACT and the end of PROC_FRAME (R32, R33).
  Safe. -/
  | noFrame
  /-- Raised by FEED when fewer symbols follow the word than it announces (R76, D24). Safe. -/
  | symbolsMissing
deriving DecidableEq, Repr

/-- The machine before its first operation: `Absent`, no working register, nothing issued, nothing answered (R20,
R40, R230). The block's one reset is the operation CREATE (R181, R230). The values of the model's own fields are a
DESIGN CHOICE (log 1 to 3). -/
def State.reset : State where
  inst := none
  fr := none
  df := none
  opIn := []
  symIn := []
  issuer := .owner
  opP := 0
  opC := 0
  opRaw := 0
  result := none
  events := []

end Sys2Proof.Machine
end

