-- ==== Sys2Proof/Machine/Bits.lean ====
section
/-! DEFINITION. Bit sequences written by a rule for each index (R10, R11). -/

namespace Sys2Proof.Machine

/-- The n-bit sequence whose element k is `f k` (R10). -/
def bitsOfFn : (n : Nat) → (Nat → Bool) → BitVec n
  | 0, _ => 0#0
  | n + 1, f => BitVec.cons (f n) (bitsOfFn n f)

/-- `x[j] ^= b` (R11). -/
def xorAt {n : Nat} (x : BitVec n) (j : Nat) (b : Bool) : BitVec n :=
  if b then x ^^^ BitVec.twoPow n j else x

/-- The number of 1 elements: `Σ` over the indexes of `[x[i] = 1]` (R11). -/
def countOnes {n : Nat} (x : BitVec n) : Nat := ((List.range n).map fun i => (x.getLsbD i).toNat).sum

/-- A sequence of n symbols as bits, element k being bit k (R53). -/
def bitsOfList (n : Nat) (l : List Symbol) : BitVec n := bitsOfFn n fun k => l.getD k false

/-- The elements of a bit sequence, element 0 first (R10). -/
def listOfBits {n : Nat} (x : BitVec n) : List Symbol := (List.range n).map fun k => x.getLsbD k

end Sys2Proof.Machine
end

