-- ==== Sys2Proof/Machine/Tables.lean ====
section
/-! DEFINITION. The constants the source fixes (R6) and the two constant tables it gives (R57, R58, R150). -/

namespace Sys2Proof.Machine

/-- `FRAME_LEN`: symbols of a raw frame unit (R6, R70). -/
abbrev frameLen : Nat := 160

/-- `FRAME_HDR_LEN`: header symbols of a raw frame unit (R6, R70). -/
abbrev frameHdrLen : Nat := 8

/-- `FRAME_DATA_LEN`: payload symbols of a raw frame unit (R6, R70). -/
abbrev frameDataLen : Nat := 152

/-- The number of compared marker positions, 1..7 (R57, R100). -/
abbrev markerLen : Nat := 7

/-- `MAX_FRAME_SYNC_ERR`: the combined mismatch budget (R6, R102). -/
abbrev maxFrameSyncErr : Nat := 1

/-- `BUF_CAP` (R6, R31). -/
abbrev bufCap : Nat := 1600

/-- `SCR_PERIOD` (R6, R150). -/
abbrev scrPeriod : Nat := 127

/-- `SCR_CONFIDENCE_DEFAULT` (R6, R29). -/
abbrev scrConfidenceDefault : Nat := 50

/-- `SCR_FAIL_PENALTY` (R6, R162). -/
abbrev scrFailPenalty : Nat := 2

/-- `SCR_PASS_REWARD` (R6, R162). -/
abbrev scrPassReward : Nat := 1

/-- `FRAME_NO_MOD` (R6, R187). -/
abbrev frameNoMod : Nat := 200

/-- `RES_LEN_1`, `RES_LEN_2` (R6, R121). -/
abbrev resLen1 : Nat := 26

/-- See `resLen1`. -/
abbrev resLen2 : Nat := 50

/-- `MARKER[1..7]`, position 1 first (R57, D4). -/
def marker : List Symbol := [true, false, true, false, false, true, true]

/-- `S[0..126]`, the scrambling sequence, as the 127-bit read-only table R150 lists; bit k is `S[k]`. -/
def scrTable : BitVec 127 := 0x106147916753e87126d6f634bb9957f#127

/-- `S[k]` (R150). -/
def scrSeq (k : Nat) : Symbol := scrTable.getLsbD k

end Sys2Proof.Machine
end

