-- ==== Sys2Proof/Machine/Flags.lean ====
section
/-! DEFINITION. What acts as flags (R36): the marker-mismatch tests and their escalation (R102, R110), the count of
error flags (R121), the frame number (R187), the status of PROCESS (R188). -/

namespace Sys2Proof.Machine

/-- The number of elements in which a marker window differs from `MARKER` (R100). -/
def mismatches (w : List Symbol) : Nat := (List.zipWith (fun x m => (x != m).toNat) w marker).sum

/-- Two marker counts are within the budget (R101, R102). -/
def withinBudget (e1 e2 : Nat) : Bool := decide (e1 + e2 ≤ maxFrameSyncErr)

/-- The escalated counter of a bad frame (R110, R113). -/
def escalate (total : Nat) : Nat := 1 + 2 * total

/-- The counter says that synchronization is lost (R110). -/
def isLost (total : Nat) : Bool := decide (frameLen ≤ total)

/-- `count`: the number of error flags set (R121). -/
def errorCount (d : Decoded) : Nat := countOnes d.err

/-- `frame_no` after a frame that carried `carried` (R187). -/
def nextFrameNo (tracked carried : FrameNo) : FrameNo :=
  match carried with
  | .known n => .known ⟨(n.val + 1) % frameNoMod, Nat.mod_lt _ (by decide)⟩
  | .unknown => tracked

/-- The status of PROCESS after a frame with result r: `Unsupported` stays (R180, R188). -/
def nextStatus (st : Status) (r : FrameResult) : Status :=
  match r with
  | .unsupported => .unsupported
  | .dispatched => st
  | .dropped _ => st

end Sys2Proof.Machine
end

