-- ==== Sys2Proof/Config.lean ====
section
/-! DEFINITION. What an implementation fixes and the spec does not give (R7, R39): the parameters, each under
the constraint of R7's table and nothing more, and the ONE opaque value of them that the machine runs with. -/

namespace Sys2Proof.Config

open Sys2Proof.Machine

/-- The parameters of R7. A value outside their domain cannot be built, which is how a model
refuses one (R142, U17). The default values below only show that the domain is not empty; `params` is opaque and is
none of them. -/
structure Params where
  /-- `ILV_UHF_DATA`, gather form: output position j takes input position `ilvUhfData j` (R59, R130, N1, N13). -/
  ilvUhfData : Equiv.Perm (Fin 152)
  /-- `ILV_UHF_VOICE`: exists, and no operation in scope reads it (R59, R131, N2). -/
  ilvUhfVoice : Equiv.Perm (Fin 152)
  /-- `DIST`, read at indexes 1..151 only (R60, N3). -/
  dist : Nat → Nat := fun _ => 1
  /-- R7, R142: a distance is at least 1. -/
  dist_pos : ∀ j, 1 ≤ j → j ≤ 151 → 1 ≤ dist j := by intros; decide
  /-- R7: a distance is at most 2. -/
  dist_le_two : ∀ j, 1 ≤ j → j ≤ 151 → dist j ≤ 2 := by intros; decide
  /-- R7, R142: a distance never leads before position 0. -/
  dist_le_index : ∀ j, 1 ≤ j → j ≤ 151 → dist j ≤ j := by intro j h _; exact h
  /-- `CRC_CHECK` (R7, R211, D15): pure and total; the frame type is always Data. -/
  crcCheck : DecodedBits → Bool
  /-- `TYPE_POS` (R73, N4). -/
  typePos : Fin 76
  /-- `TYPE_DATA` (R7, D17). -/
  typeData : Bool
  /-- `IDX_HI_POS` (R73, R174, N5). -/
  idxHiPos : Fin 76 := 0
  /-- `IDX_LO_POS` (R73, R174, N5). -/
  idxLoPos : Fin 76 := 1
  /-- R7: the two index positions are distinct. -/
  idx_distinct : idxHiPos ≠ idxLoPos := by decide
  /-- `ST0_POS` (R73, N6). -/
  st0Pos : Fin 76
  /-- `ST1_POS` (R73, N6). -/
  st1Pos : Fin 76
  /-- Which optional `DIAG` events come out (R83, R212, U10): `emitsDiag es d` says whether `d` is emitted where the
  operation's list so far is `es`. -/
  emitsDiag : List Event → Diag → Bool
deriving Inhabited

/-- The parameters the machine runs with: a free value. Nothing in Lean can evaluate it or prove more of it than
`Params`' constraints (R7; assumption log 4 and 5). -/
opaque params : Params

end Sys2Proof.Config
end

