-- ==== Sys2Proof/Machine/Ops.lean ====
section
/-! DEFINITION. The named operations everything else is written over: the buffer primitives (R52), the fresh
instance (R40), writing the scrambling constant (R184, R165), emitting events (R209), and answering an operation.
The block takes no exception (R200, R216): what stands in its place is the ONE operation `reject`, the entry of the
error kinds that refuse an operation, which saves nothing and needs no return (R217). -/

namespace Sys2Proof.Machine

/-- `BufLen()` (R52). -/
def bufLen (b : List Symbol) : Nat := b.length

/-- `BufRead` of the n indexes a, a+1, ...: a fault where one of them is outside the buffer (R52, R64). -/
def bufRead (b : List Symbol) (a n : Nat) : Except Fault (List Symbol) :=
  let w := (b.drop a).take n
  if w.length = n then .ok w else .error .readOutsideBuffer

/-- `BufAppend(seq)` (R52). -/
def bufAppend (b seq : List Symbol) : List Symbol := b ++ seq

/-- `BufDropFront(n)` (R52). -/
def bufDropFront (b : List Symbol) (n : Nat) : List Symbol := b.drop n

/-- 128 scores of 0 (R30). -/
def zeroScores : Vector Nat 128 := Vector.ofFn fun _ => 0

/-- The instance right after CREATE(b, k): the table of R40. -/
def freshChannel (b : Band) (k : ChannelKind) : Channel where
  band := b
  channelKind := k
  syncState := .notSynced
  lastSyncErr := 0
  totalSyncErr := 0
  frameNo := .unknown
  scr := .auto
  scrGuess := 0
  scrConfidence := scrConfidenceDefault
  scrStat := zeroScores
  buffer := []

/-- What SET_SCR and the detector's commit do (R184, R165): `scr <- v`, and every score to 0. -/
def Channel.writeScr (c : Channel) (v : Scr) : Channel := { c with scr := v, scrStat := zeroScores }

/-- `emit DIAG(d)`, which an implementation may leave out (R83, R212, U10). -/
def emitDiag (P : Config.Params) (es : List Event) (d : Diag) : List Event :=
  if P.emitsDiag es d then es ++ [.diag d] else es

/-- `emit E` of a mandatory event (R209). -/
def emit (es : List Event) (e : Event) : List Event := es ++ [e]

/-- The operation ends: its result value, if it has one, and its event list (R5, R209). -/
def State.answer (s : State) (r : Option Result) (es : List Event) : State := { s with result := r, events := es }

/-- The instance is now c. -/
def State.setInst (s : State) (c : Channel) : State := { s with inst := some c }

/-- The working register `FR` now holds f, or no Frame exists any more (R32). -/
def State.setFrame (s : State) (f : Option Frame) : State := { s with fr := f }

/-- The same for `DF`. -/
def State.setDecoded (s : State) (d : Option Decoded) : State := { s with df := d }

/-- An error kind refuses the operation: `Err(kind)`, no state change, no event (R80, R208, R216). -/
def reject (s : State) (k : ErrorKind) : Host.Outcome State Fault Refusal := .next (s.answer (some (.err k)) [])

/-- The operation acts on the instance; while `Absent` it is refused (R193). -/
def withChannel (s : State) (f : Channel → Host.Outcome State Fault Refusal) : Host.Outcome State Fault Refusal :=
  match s.inst with
  | some c => f c
  | none => reject s .noInstance

/-- A host operation whose `arg` must be zero (R80). -/
def withZeroArg (s : State) (arg : Arg) (k : Host.Outcome State Fault Refusal) : Host.Outcome State Fault Refusal :=
  if arg = 0 then k else reject s .badOperand

/-- An internal operation (R2, R76, R80): BadOperation unless the block itself presents its identifier. The check of
`op` comes before the check that the instance exists (R215). -/
def asInternal (s : State) (arg : Arg) (f : Channel → Host.Outcome State Fault Refusal) :
    Host.Outcome State Fault Refusal :=
  if s.issuer = .block ∧ arg = 0 then withChannel s f else reject s .badOperation

/-- An internal operation on the Frame `FR` (R32, R33). -/
def withFrame (s : State) (f : Frame → Host.Outcome State Fault Refusal) : Host.Outcome State Fault Refusal :=
  match s.fr with
  | some x => f x
  | none => .refused .noFrame

end Sys2Proof.Machine
end

