-- ==== Sys2Proof/Machine/Sync.lean ====
section
/-! DEFINITION. The frame synchronizer (file 41): MARKER_CMP and SYNC_ACQ. -/

namespace Sys2Proof.Machine

/-- MARKER_CMP(p): the mismatches of the symbols at p+1..p+7 with `MARKER[1..7]`; p+0 is not read (R100). -/
def markerCmp (b : List Symbol) (p : Nat) : Except Fault Nat :=
  match bufRead b (p + 1) markerLen with
  | .ok w => .ok (mismatches w)
  | .error f => .error f

/-- The loop of SYNC_ACQ from offset o on, with n offsets left to test: the first whose two markers, 160 apart, are
within the budget (R101, R102). -/
def syncScan (b : List Symbol) : (n o : Nat) → Except Fault (Option Nat)
  | 0, _ => .ok none
  | n + 1, o =>
    match markerCmp b o, markerCmp b (o + frameLen) with
    | .ok e1, .ok e2 => if withinBudget e1 e2 then .ok (some o) else syncScan b n (o + 1)
    | .error f, _ => .error f
    | _, .error f => .error f

/-- The number of offsets o with `o + 168 <= BufLen()` (R101, D3). -/
def syncOffsets (b : List Symbol) : Nat := bufLen b - (frameLen + frameHdrLen - 1)

/-- SYNC_ACQ (R101): in both outcomes the symbols before the last tested offset (found) or every tested offset (not
found) are dropped; on Found both counters become 0. -/
def syncAcq (c : Channel) : Except Fault (Channel × SyncResult) :=
  match syncScan c.buffer (syncOffsets c.buffer) 0 with
  | .error f => .error f
  | .ok (some o) =>
    .ok ({ c with buffer := bufDropFront c.buffer o, lastSyncErr := 0, totalSyncErr := 0 }, .found)
  | .ok none => .ok ({ c with buffer := bufDropFront c.buffer (syncOffsets c.buffer) }, .notFound)

/-- MARKER_CMP presented by the block, on the operand `opP` (R100). -/
def execMarkerCmp (arg : Arg) (s : State) : Host.Outcome State Fault Refusal :=
  asInternal s arg fun c =>
    match markerCmp c.buffer s.opP with
    | .ok e => .next (s.answer (some (.mismatches e)) [])
    | .error f => .fault f

/-- SYNC_ACQ presented by the block (R101). -/
def execSyncAcq (arg : Arg) (s : State) : Host.Outcome State Fault Refusal :=
  asInternal s arg fun c =>
    match syncAcq c with
    | .ok (c', r) => .next ((s.setInst c').answer (some (.sync r)) [])
    | .error f => .fault f

end Sys2Proof.Machine
end

