-- ==== Sys2Proof/Machine/Extraction.lean ====
section
/-! DEFINITION. Frame extraction (file 42): DIFFDEC1 and EXTRACT. -/

namespace Sys2Proof.Machine

/-- `out[k]` of DIFFDEC1: `raw[k]` XOR the previous decoded symbol, seeded with 0 (R111). -/
def runningXor (raw : FrameBits) : Nat → Bool
  | 0 => raw.getLsbD 0 ^^ false
  | k + 1 => raw.getLsbD (k + 1) ^^ runningXor raw k

/-- DIFFDEC1(raw), the line differential decode (R111). -/
def diffDec1 (raw : FrameBits) : FrameBits := bitsOfFn 152 (runningXor raw)

/-- The last steps of EXTRACT on a frame that is not fatal (R110): `total` is the counter the escalation left. -/
def takeFrame (c : Channel) (syncErr total : Nat) : Except Fault (Channel × ExtractResult) :=
  match bufRead c.buffer frameHdrLen frameDataLen with
  | .error f => .error f
  | .ok raw =>
    .ok ({ c with totalSyncErr := total, lastSyncErr := syncErr, buffer := bufDropFront c.buffer frameLen },
      .frame { data := diffDec1 (bitsOfList 152 raw), no := c.frameNo })

/-- EXTRACT (R110, C6, D5, D25). -/
def extract (c : Channel) : Except Fault (Channel × ExtractResult) :=
  if bufLen c.buffer < frameLen then .ok (c, .noFrameYet)
  else
    match markerCmp c.buffer 0 with
    | .error f => .error f
    | .ok syncErr =>
      if withinBudget syncErr c.lastSyncErr then takeFrame c syncErr 0
      else if isLost (escalate c.totalSyncErr) then
        .ok ({ c with totalSyncErr := escalate c.totalSyncErr }, .syncLost)
      else takeFrame c syncErr (escalate c.totalSyncErr)

/-- EXTRACT presented by the block: a Frame goes to `FR` (R33, R110). -/
def execExtract (arg : Arg) (s : State) : Host.Outcome State Fault Refusal :=
  asInternal s arg fun c =>
    match extract c with
    | .error f => .fault f
    | .ok (c', .noFrameYet) => .next ((s.setInst c').answer (some (.extract .noFrameYet)) [])
    | .ok (c', .syncLost) => .next ((s.setInst c').answer (some (.extract .syncLost)) [])
    | .ok (c', .frame f) => .next (((s.setInst c').setFrame (some f)).answer (some (.extract (.frame f))) [])

/-- DIFFDEC1 presented by the block, on the operand `opRaw`: it returns its result and writes no state (R111). -/
def execDiffDec1 (arg : Arg) (s : State) : Host.Outcome State Fault Refusal :=
  asInternal s arg fun _ => .next (s.answer (some (.symbols (diffDec1 s.opRaw))) [])

end Sys2Proof.Machine
end

