-- ==== Sys2Proof/Machine/Transforms.lean ====
section
/-! DEFINITION. The fixed transforms of a frame (files 43 to 46): CHDEC, DEINTERLEAVE, DIFFDEC2, DESCRAMBLE, and
their composition TRIAL_DECODE (R160). -/

namespace Sys2Proof.Machine

/-- `res[i]` of CHDEC_BLOCK over an M-symbol circular block (R120). -/
def resBit (inp : Nat → Bool) (M i : Nat) : Bool := inp ((2 * i + 2) % M) ^^ inp ((2 * i + 3) % M)

/-- `chk[i]` of CHDEC_BLOCK (R120). -/
def chkBit (inp : Nat → Bool) (M i : Nat) : Bool :=
  inp ((2 * i + 5) % M) ^^ inp ((2 * i + 6) % M) ^^ inp ((2 * i + 7) % M)

/-- CHDEC_BLOCK(in, L), the pair (res, err), with M = 2L (R120). -/
def chDecBlock (inp : Nat → Bool) (L : Nat) : BitVec L × BitVec L :=
  (bitsOfFn L (resBit inp (2 * L)), bitsOfFn L fun i => chkBit inp (2 * L) i ^^ resBit inp (2 * L) i)

/-- CHDEC(FR): the two blocks, the first one's outputs first (R121, C1). -/
def chDec (f : Frame) : Decoded :=
  let b1 := chDecBlock (fun m => f.data.getLsbD m) resLen1
  let b2 := chDecBlock (fun m => f.data.getLsbD (2 * resLen1 + m)) resLen2
  { data := b2.1 ++ b1.1, err := b2.2 ++ b1.2, no := f.no }

/-- DEINTERLEAVE(T), gather form, all reads from the frame as it was (R130, D6). -/
def deinterleave (T : Fin 152 → Fin 152) (x : FrameBits) : FrameBits :=
  bitsOfFn 152 fun j => if h : j < 152 then x.getLsbD (T ⟨j, h⟩).val else false

/-- The pass of DIFFDEC2 from position j down to 1, in place (R140, C8). -/
def diffDec2From (dist : Nat → Nat) : Nat → FrameBits → FrameBits
  | 0, x => x
  | j + 1, x => diffDec2From dist j (xorAt x (j + 1) (x.getLsbD (j + 1 - dist (j + 1))))

/-- DIFFDEC2 (R140). -/
def diffDec2 (dist : Nat → Nat) (x : FrameBits) : FrameBits := diffDec2From dist 151 x

/-- DESCRAMBLE(c): the identity for c = 0, else the sequence at phase c (R151, C2). -/
def descramble (c : Fin 128) (x : FrameBits) : FrameBits :=
  if c = 0 then x else bitsOfFn 152 fun k => x.getLsbD k ^^ scrSeq ((k + c.val) % scrPeriod)

/-- TRIAL_DECODE(F, c) on a copy of F; its count is `errorCount` of the answer (R160). -/
def trialDecode (P : Config.Params) (f : Frame) (c : Fin 128) : Decoded :=
  chDec { f with data := deinterleave P.ilvUhfData (diffDec2 P.dist (descramble c f.data)) }

/-- CHDEC presented by the block: `DF` is written (R121). -/
def execChDec (arg : Arg) (s : State) : Host.Outcome State Fault Refusal :=
  asInternal s arg fun _ => withFrame s fun f =>
    .next ((s.setDecoded (some (chDec f))).answer (some (.decoded (chDec f) (errorCount (chDec f)))) [])

/-- DEINTERLEAVE presented by the block: `FR.data` through the UHF data table (R130). For VHF no table exists: the
unsupported-configuration result, the frame untouched (R132). -/
def execDeinterleave (arg : Arg) (s : State) : Host.Outcome State Fault Refusal :=
  asInternal s arg fun c => withFrame s fun f =>
    match c.band with
    | .vhf => .next (s.answer (some (.err .unsupportedConfiguration)) [])
    | .uhf => .next ((s.setFrame (some { f with data := deinterleave Config.params.ilvUhfData f.data })).answer none [])

/-- DIFFDEC2 presented by the block (R140). -/
def execDiffDec2 (arg : Arg) (s : State) : Host.Outcome State Fault Refusal :=
  asInternal s arg fun _ => withFrame s fun f =>
    .next ((s.setFrame (some { f with data := diffDec2 Config.params.dist f.data })).answer none [])

/-- DESCRAMBLE presented by the block, on the operand `opC` (R151). -/
def execDescramble (arg : Arg) (s : State) : Host.Outcome State Fault Refusal :=
  asInternal s arg fun _ => withFrame s fun f =>
    .next ((s.setFrame (some { f with data := descramble s.opC f.data })).answer none [])

end Sys2Proof.Machine
end

