-- ==== Sys2Proof/Machine/Detector.lean ====
section
/-! DEFINITION. The scrambling-constant detector (file 47): SCRDETECT. -/

namespace Sys2Proof.Machine

/-- The trial with candidate c succeeds: error count 0 and `CRC_CHECK` true (R161, R162). -/
def trialPasses (P : Config.Params) (f : Frame) (c : Fin 128) : Bool :=
  errorCount (trialDecode P f c) == 0 && P.crcCheck (trialDecode P f c).data

/-- One score after a trial: +1 on success, -2 floored at 0 on failure (R162, U6). -/
def scoreAfter (passes : Bool) (old : Nat) : Nat := if passes then old + scrPassReward else old - scrFailPenalty

/-- The 128 scores after one run (R161, R162). -/
def scoresAfter (P : Config.Params) (f : Frame) (stat : Vector Nat 128) : Vector Nat 128 :=
  Vector.ofFn fun c => scoreAfter (trialPasses P f c) stat[c]

/-- `best`: left-to-right scan, replaced only by a strictly greater score (R161, R163). -/
def bestCandidate (stat : Vector Nat 128) : Fin 128 :=
  (List.finRange 128).foldl (fun best c => if stat[c] > stat[best] then c else best) 0

/-- `second`: the largest score of the other candidates (R161, R163, D10). -/
def secondScore (stat : Vector Nat 128) (best : Fin 128) : Nat :=
  (List.finRange 128).foldl (fun m c => if c = best then m else max m stat[c]) 0

/-- The commit condition (R164). -/
def commits (stat : Vector Nat 128) (confidence : Nat) : Bool :=
  decide (stat[bestCandidate stat] > secondScore stat (bestCandidate stat) + confidence)

/-- SCRDETECT(F) with the events emitted so far (R161, R165, R166). -/
def scrDetect (P : Config.Params) (c : Channel) (f : Frame) (es : List Event) : Channel × List Event :=
  let stat := scoresAfter P f c.scrStat
  let best := bestCandidate stat
  let c1 := { c with scrStat := stat, scrGuess := best }
  if commits stat c.scrConfidence then (c1.writeScr (.known best), emitDiag P es (.scrLocked best))
  else (c1, es)

/-- SCRDETECT presented by the block (R161). It is never reached with VHF, for which no table exists: then it does
not run (D12, R132). -/
def execScrDetect (arg : Arg) (s : State) : Host.Outcome State Fault Refusal :=
  asInternal s arg fun c => withFrame s fun f =>
    match c.band with
    | .vhf => .next (s.answer (some (.err .unsupportedConfiguration)) [])
    | .uhf =>
      .next ((s.setInst (scrDetect Config.params c f []).1).answer none (scrDetect Config.params c f []).2)

end Sys2Proof.Machine
end

