-- ==== Sys2Proof/Machine/Operands.lean ====
section
/-! DEFINITION. Operand forms: the codes of the enumerations (R75), the operands of CREATE and SET_SCR (R79, R80),
the fields of a decoded frame (R73, R174), the bits of a result (R78). -/

namespace Sys2Proof.Machine

/-- The Band a code names (R75). -/
def bandOfCode (c : BitVec 2) : Option Band :=
  match c.toNat with
  | 0 => some .vhf
  | 1 => some .uhf
  | _ => none

/-- R75. -/
def Band.code : Band → BitVec 2
  | .vhf => 0
  | .uhf => 1

/-- The ChannelKind a code names (R75). -/
def channelKindOfCode (c : BitVec 2) : Option ChannelKind :=
  match c.toNat with
  | 0 => some .control
  | 1 => some .traffic
  | _ => none

/-- R75. -/
def ChannelKind.code : ChannelKind → BitVec 2
  | .control => 0
  | .traffic => 1

/-- R75. -/
def SyncState.code : SyncState → Nat
  | .notSynced => 0
  | .synced => 1

/-- R75. -/
def Status.code : Status → Nat
  | .idle => 0
  | .unsupported => 1

/-- R75. -/
def ErrorKind.code : ErrorKind → Nat
  | .configError => 1
  | .syncNotFound => 2
  | .syncLost => 3
  | .channelDecodeError => 4
  | .frameTypeMismatch => 5
  | .crcMismatch => 6
  | .unsupportedConfiguration => 7
  | .badOperand => 8
  | .badOperation => 9
  | .noInstance => 10

/-- The code of an error kind, and 0 where there is none (R75). -/
def errorCode : Option ErrorKind → Nat
  | none => 0
  | some k => k.code

/-- The error kind of a dropped frame (R83, R171). -/
def DropKind.error : DropKind → ErrorKind
  | .channelDecodeError => .channelDecodeError
  | .frameTypeMismatch => .frameTypeMismatch
  | .crcMismatch => .crcMismatch

/-- A Scr value as bits, `a vvvvvvv` (R75, R78). -/
def Scr.bits : Scr → BitVec 8
  | .auto => 0x80
  | .known v => BitVec.ofNat 8 v.val

/-- A frame number as bits: the `known` flag and the 8-bit `value` of R75. That they stand in one word, the flag at bit 8
above the value, is a DESIGN CHOICE (log 12): R75 gives no positions, and R78 packs Scr values only. -/
def FrameNo.bits : FrameNo → BitVec 9
  | .unknown => 0
  | .known n => BitVec.ofNat 9 (256 + n.val)

/-- The operands of CREATE, or the error its word gets: an invalid code before a reserved bit (R80, R181, R215). -/
def createOperands (rsv : BitVec 7) (kind band : BitVec 2) : Except ErrorKind (Band × ChannelKind) :=
  match bandOfCode band, channelKindOfCode kind with
  | some b, some k => if rsv = 0 then .ok (b, k) else .error .badOperand
  | _, _ => .error .configError

/-- The operand of SET_SCR, if the word is legal and the value in 0..127 (R79, R80). -/
def scrOperand (rsv : BitVec 3) (auto : Bool) (v : Nat) : Option Scr :=
  if rsv = 0 then
    if auto then
      if v = 0 then some .auto else none
    else if h : v < 128 then some (.known ⟨v, h⟩) else none
  else none

/-- The sub-block index of its two bits, `2 * IDX_HI + IDX_LO` (R174). -/
def subBlockIndex (hi lo : Bool) : Fin 4 :=
  ⟨2 * hi.toNat + lo.toNat, by cases hi <;> cases lo <;> decide⟩

end Sys2Proof.Machine
end

