-- ==== Sys2Proof/Machine/Frames.lean ====
section
/-! DEFINITION. The per-frame processors (file 48): CCH_PROC, TCH_PROC, PROC_FRAME. -/

namespace Sys2Proof.Machine

/-- The effective scrambling constant (R171 step 1). -/
def effectiveScr (c : Channel) : Fin 128 :=
  match c.scr with
  | .known v => v
  | .auto => c.scrGuess

/-- The gates of CCH_PROC on a decoded frame, in their order; none if all pass (R171, R173). -/
def firstFailedGate (P : Config.Params) (d : Decoded) : Option DropKind :=
  if errorCount d ≠ 0 then some .channelDecodeError
  else if d.data.getLsbD P.typePos ≠ P.typeData then some .frameTypeMismatch
  else if !P.crcCheck d.data then some .crcMismatch
  else none

/-- The index of a decoded frame (R173 to R174). -/
def decodedIndex (P : Config.Params) (d : Decoded) : Fin 4 :=
  subBlockIndex (d.data.getLsbD P.idxHiPos) (d.data.getLsbD P.idxLoPos)

/-- CCH_PROC(F) with the events emitted so far; it writes no state (R171, R175). -/
def cchProc (P : Config.Params) (c : Channel) (f : Frame) (es : List Event) : FrameResult × List Event :=
  let k := effectiveScr c
  let d := trialDecode P f k
  match firstFailedGate P d with
  | some kind => (.dropped kind, emitDiag P (emit es .reasmReset) (.frameErr d.no kind k))
  | none =>
    let idx := decodedIndex P d
    (.dispatched, emitDiag P (emit es (.reasmDispatch d.data idx))
      (.frameOk d.no idx (d.data.getLsbD P.st0Pos) (d.data.getLsbD P.st1Pos) k))

/-- TCH_PROC(F): `Unsupported` and nothing else (R172). -/
def tchProc (es : List Event) : FrameResult × List Event := (.unsupported, es)

/-- PROC_FRAME(F) with the events emitted so far (R170, D12). -/
def procFrame (P : Config.Params) (c : Channel) (f : Frame) (es : List Event) :
    Channel × FrameResult × List Event :=
  match c.channelKind, c.band with
  | .traffic, _ => (c, tchProc es)
  | .control, .vhf => (c, .unsupported, es)
  | .control, .uhf =>
    match c.scr with
    | .auto =>
      let d := scrDetect P c f es
      (d.1, cchProc P d.1 f d.2)
    | .known _ => (c, cchProc P c f es)

/-- CCH_PROC presented by the block: `DF` holds what it decoded (R171). For VHF: unsupported, no effect (R132, R171
step 2). -/
def execCchProc (arg : Arg) (s : State) : Host.Outcome State Fault Refusal :=
  asInternal s arg fun c => withFrame s fun f =>
    match c.band with
    | .vhf => .next (s.answer (some (.frame .unsupported)) [])
    | .uhf =>
      .next ((s.setDecoded (some (trialDecode Config.params f (effectiveScr c)))).answer
        (some (.frame (cchProc Config.params c f []).1)) (cchProc Config.params c f []).2)

/-- TCH_PROC presented by the block; its operand is ignored (R172). -/
def execTchProc (arg : Arg) (s : State) : Host.Outcome State Fault Refusal :=
  asInternal s arg fun _ => .next (s.answer (some (.frame (tchProc []).1)) (tchProc []).2)

/-- PROC_FRAME presented by the block; at its end no Frame and no DecodedFrame exist any more (R32, R170). -/
def execProcFrame (arg : Arg) (s : State) : Host.Outcome State Fault Refusal :=
  asInternal s arg fun c => withFrame s fun f =>
    let r := procFrame Config.params c f []
    .next ((((s.setInst r.1).setFrame none).setDecoded none).answer (some (.frame r.2.1)) r.2.2)

end Sys2Proof.Machine
end

