-- ==== Sys2Proof/Machine/HostOps.lean ====
section
/-! DEFINITION. The drive loop and the host operations (file 49): PROCESS, CREATE, FEED and the four accessors. -/

namespace Sys2Proof.Machine

/-- The extraction loop of PROCESS while at most n whole frame units are in the buffer (R180, R189); n = 0 is EXTRACT
answering `NoFrameYet`. -/
def drain (P : Config.Params) : Nat → Channel → Status → List Event → Except Fault (Channel × Status × List Event)
  | 0, c, st, es => .ok (c, st, es)
  | n + 1, c, st, es =>
    match extract c with
    | .error f => .error f
    | .ok (c1, .noFrameYet) => .ok (c1, st, es)
    | .ok (c1, .syncLost) => .ok ({ c1 with syncState := .notSynced }, st, emitDiag P es .syncLost)
    | .ok (c1, .frame f) =>
      let r := procFrame P c1 f es
      drain P n { r.1 with frameNo := nextFrameNo r.1.frameNo f.no } (nextStatus st r.2.1) r.2.2

/-- The loop of PROCESS from a Synced instance, with enough turns for every whole frame unit (R180, R189). -/
def drainAll (P : Config.Params) (c : Channel) (st : Status) (es : List Event) :
    Except Fault (Channel × Status × List Event) :=
  drain P (bufLen c.buffer / frameLen) c st es

/-- PROCESS (R180). -/
def process (P : Config.Params) (c : Channel) : Except Fault (Channel × Status × List Event) :=
  match c.syncState with
  | .synced => drainAll P c .idle []
  | .notSynced =>
    match syncAcq c with
    | .error f => .error f
    | .ok (c1, .notFound) => .ok (c1, .idle, [])
    | .ok (c1, .found) =>
      drainAll P { c1 with syncState := .synced, frameNo := .unknown } .idle
        (emitDiag P (emit [] .reasmReset) .syncAcquired)

/-- PROCESS (R180). `FR` and `DF` do not outlive the call (R32). -/
def execProcess (arg : Arg) (s : State) : Host.Outcome State Fault Refusal :=
  withChannel s fun c => withZeroArg s arg <|
    match process Config.params c with
    | .error f => .fault f
    | .ok (c', st, es) => .next ((((s.setInst c').setFrame none).setDecoded none).answer (some (.status st)) es)

/-- CREATE (R181, R40): with legal operands a fresh instance, whatever the state was. -/
def execCreate (rsv : BitVec 7) (kind band : BitVec 2) (s : State) : Host.Outcome State Fault Refusal :=
  match createOperands rsv kind band with
  | .error k => reject s k
  | .ok (b, k) => .next ((((s.setInst (freshChannel b k)).setFrame none).setDecoded none).answer (some .ok) [])

/-- How many of len offered symbols FEED admits (R182). -/
def admitted (b : List Symbol) (len : Nat) : Nat := min len (bufCap - bufLen b)

/-- FEED (R182): the n symbols that follow the word are its operand, taken from the symbol input whether or not they
are admitted; with fewer than n there it has no operand (R76, D24). -/
def execFeed (n : Nat) (s : State) : Host.Outcome State Fault Refusal :=
  let rest := { s with symIn := s.symIn.drop n }
  withChannel rest fun c =>
    if s.symIn.length < n then .refused .symbolsMissing
    else
      let m := admitted c.buffer n
      .next ((rest.setInst { c with buffer := bufAppend c.buffer ((s.symIn.take n).take m) }).answer
        (some (.consumed m)) [])

/-- GET_SCR (R183). -/
def execGetScr (arg : Arg) (s : State) : Host.Outcome State Fault Refusal :=
  withChannel s fun c => withZeroArg s arg <| .next (s.answer (some (.scr c.scr)) [])

/-- SET_SCR (R184). -/
def execSetScr (rsv : BitVec 3) (auto : Bool) (v : Nat) (s : State) : Host.Outcome State Fault Refusal :=
  withChannel s fun c =>
    match scrOperand rsv auto v with
    | some x => .next ((s.setInst (c.writeScr x)).answer (some .ok) [])
    | none => reject s .badOperand

/-- GET_SCR_CONFIDENCE (R185). -/
def execGetScrConfidence (arg : Arg) (s : State) : Host.Outcome State Fault Refusal :=
  withChannel s fun c => withZeroArg s arg <| .next (s.answer (some (.confidence c.scrConfidence)) [])

/-- SET_SCR_CONFIDENCE (R186). -/
def execSetScrConfidence (n : Nat) (s : State) : Host.Outcome State Fault Refusal :=
  withChannel s fun c => .next ((s.setInst { c with scrConfidence := n }).answer (some .ok) [])

end Sys2Proof.Machine
end

