-- ==== Sys2Proof/Machine/Dispatch.lean ====
section
/-! DEFINITION. One arm per operation. -/

namespace Sys2Proof.Machine

def exec (i : Instr) (s : State) : Host.Outcome State Fault Refusal :=
  match i with
  | .create rsv kind band => Sys2Proof.Machine.execCreate rsv kind band s
  | .feed n => Sys2Proof.Machine.execFeed n s
  | .process arg => Sys2Proof.Machine.execProcess arg s
  | .getScr arg => Sys2Proof.Machine.execGetScr arg s
  | .setScr rsv auto v => Sys2Proof.Machine.execSetScr rsv auto v s
  | .getScrConfidence arg => Sys2Proof.Machine.execGetScrConfidence arg s
  | .setScrConfidence n => Sys2Proof.Machine.execSetScrConfidence n s
  | .markerCmp arg => Sys2Proof.Machine.execMarkerCmp arg s
  | .syncAcq arg => Sys2Proof.Machine.execSyncAcq arg s
  | .extract arg => Sys2Proof.Machine.execExtract arg s
  | .diffDec1 arg => Sys2Proof.Machine.execDiffDec1 arg s
  | .chDec arg => Sys2Proof.Machine.execChDec arg s
  | .deinterleave arg => Sys2Proof.Machine.execDeinterleave arg s
  | .diffDec2 arg => Sys2Proof.Machine.execDiffDec2 arg s
  | .descramble arg => Sys2Proof.Machine.execDescramble arg s
  | .scrDetect arg => Sys2Proof.Machine.execScrDetect arg s
  | .procFrame arg => Sys2Proof.Machine.execProcFrame arg s
  | .cchProc arg => Sys2Proof.Machine.execCchProc arg s
  | .tchProc arg => Sys2Proof.Machine.execTchProc arg s

end Sys2Proof.Machine
end

