-- ==== Sys2Proof/Machine/Issue.lean ====
section
/-! DEFINITION. Taking an operation word and running it (R61, R76, R80): what `step` calls. -/

namespace Sys2Proof.Machine

/-- The word at the front of `opIn` has been taken. -/
def State.takeWord (s : State) : State := { s with opIn := s.opIn.tail }

/-- Run a word that has been taken: the operation it names, or `Err(BadOperation)` for a reserved `op` (R80). -/
def runWord (w : OpWord) (s : State) : Host.Outcome State Fault Refusal :=
  match decode w with
  | .ok i => exec i s
  | .error (.reservedOp _) => reject s .badOperation

/-- The word with the table's bit numbering in place of the next word to be taken (R76). -/
def placeWord (s : State) (nbits w : Nat) : State :=
  { s with opIn := BitVec.ofNat 16 (w % 2 ^ nbits) :: s.opIn.tail }

end Sys2Proof.Machine
end

