-- ==== Sys2Proof/Machine/Step.lean ====
section
/-! DEFINITION. One step: the next operation the owner issues, from start to end (R5, R61, R192). -/

namespace Sys2Proof.Machine

/-- Where no operation is issued, nothing happens (R214, R224). -/
def step (s : State) : Host.Outcome State Fault Refusal :=
  match s.opIn with
  | [] => .next s
  | w :: _ => runWord w s.takeWord

/-- `s` with that operation word as the next one `step` takes. -/
def State.withFetchWord (s : State) (nbits w : Nat) : State := placeWord s nbits w

end Sys2Proof.Machine
end

