-- ==== Sys2Proof/Machine/Encoders.lean ====
section
/-! DEFINITION. The transmitter's forward stages, inverses of the receive operations (R111, R123, R141, R151): no
part of the block, which holds no encoder (N18, N21). Statements use them to say what frames decode. -/

namespace Sys2Proof.Machine

/-- The inverse of DIFFDEC1: `raw[0] = x[0]`, `raw[k] = x[k] XOR x[k-1]` (R111). -/
def lineEncode (x : FrameBits) : FrameBits :=
  bitsOfFn 152 fun k => if k = 0 then x.getLsbD 0 else x.getLsbD k ^^ x.getLsbD (k - 1)

/-- The ascending pass of the precode up to position n, in place (R141). -/
def precodeTo (dist : Nat → Nat) : Nat → FrameBits → FrameBits
  | 0, x => x
  | n + 1, x => xorAt (precodeTo dist n x) (n + 1) ((precodeTo dist n x).getLsbD (n + 1 - dist (n + 1)))

/-- The inverse of DIFFDEC2 (R141). -/
def precode (dist : Nat → Nat) (x : FrameBits) : FrameBits := precodeTo dist 151 x

/-- The inverse of DEINTERLEAVE(T) is DEINTERLEAVE of the inverse permutation (R130). -/
def interleave (T : Equiv.Perm (Fin 152)) (x : FrameBits) : FrameBits := deinterleave T.symm x

/-- Input m of the error-free block that decodes to b (R123): `in[2k+1] = b[k-2] XOR b[k]`,
`in[2k] = b[k-1] XOR in[2k+1]`, indexes of b modulo L. -/
def chEncBit (b : Nat → Bool) (L m : Nat) : Bool :=
  let k := m / 2
  let odd := b ((k + L - 2) % L) ^^ b (k % L)
  if m % 2 = 1 then odd else b ((k + L - 1) % L) ^^ odd

/-- The inverse of CHDEC on its two blocks (R123). -/
def chEnc (b : DecodedBits) : FrameBits :=
  bitsOfFn 152 fun m =>
    if m < 2 * resLen1 then chEncBit (fun k => b.getLsbD k) resLen1 m
    else chEncBit (fun k => b.getLsbD (resLen1 + k)) resLen2 (m - 2 * resLen1)

/-- The payload a transmitter sends for the plain block b under constant c: the five forward stages (C4). -/
def forwardPayload (P : Config.Params) (c : Fin 128) (b : DecodedBits) : FrameBits :=
  lineEncode (descramble c (precode P.dist (interleave P.ilvUhfData (chEnc b))))

/-- A raw frame unit: header symbol 0, the marker, the payload (R70). -/
def frameUnit (h0 : Symbol) (payload : FrameBits) : List Symbol := h0 :: (marker ++ listOfBits payload)

end Sys2Proof.Machine
end

