-- ==== Sys2Proof/Machine/Text.lean ====
section
/-! DEFINITION. The textual form of the host operations (R81) and the two pseudo-operations (R82). -/

namespace Sys2Proof.Machine

/-- A `<bits>` operand, first symbol leftmost (R81). -/
def bitsText (l : List Symbol) : String := String.ofList (l.map fun b => if b then '1' else '0')

/-- R81. -/
def Band.text : Band → String
  | .vhf => "VHF"
  | .uhf => "UHF"

/-- R81. -/
def ChannelKind.text : ChannelKind → String
  | .control => "CONTROL"
  | .traffic => "TRAFFIC"

/-- The line of a host operation with legal operands; `symbols` is what follows a FEED word. The other operations
have no textual form (R81). -/
def opText (i : Instr) (symbols : List Symbol) : Option String :=
  match i with
  | .create rsv kind band =>
    match createOperands rsv kind band with
    | .ok (b, k) => some ("CREATE " ++ b.text ++ ", " ++ k.text)
    | .error _ => none
  | .feed _ => some ("FEED " ++ bitsText symbols)
  | .process arg => if arg = 0 then some "PROCESS" else none
  | .getScr arg => if arg = 0 then some "GET_SCR" else none
  | .setScr rsv auto v =>
    match scrOperand rsv auto v with
    | some .auto => some "SET_SCR AUTO"
    | some (.known x) => some ("SET_SCR " ++ toString x.val)
    | none => none
  | .getScrConfidence arg => if arg = 0 then some "GET_SCR_CONFIDENCE" else none
  | .setScrConfidence n => some ("SET_SCR_CONFIDENCE " ++ toString n)
  | .markerCmp _ => none
  | .syncAcq _ => none
  | .extract _ => none
  | .diffDec1 _ => none
  | .chDec _ => none
  | .deinterleave _ => none
  | .diffDec2 _ => none
  | .descramble _ => none
  | .scrDetect _ => none
  | .procFrame _ => none
  | .cchProc _ => none
  | .tchProc _ => none

/-- SET_SCR of a setting (R184). -/
def setScrOp : Scr → Instr
  | .auto => .setScr 0 true 0
  | .known v => .setScr 0 false v.val

/-- `PRESET <band>, <kind>, <v>` (R82). -/
def presetOps (b : Band) (k : ChannelKind) (v : Scr) : List Instr := [.create 0 k.code b.code, setScrOp v]

/-- `FEED_REP <n>, <bits>` (R82): one FEED, and the symbols that follow it. -/
def feedRep (n : Nat) (l : List Symbol) : Instr × List Symbol :=
  (.feed (n * l.length), (List.replicate n l).flatten)

end Sys2Proof.Machine
end

