-- ==== Sys2Proof/Safety.lean ====
section
/-! DEFINITION. What the claims call a good state (R32, R37) and a safe answer. -/

namespace Sys2Proof.Machine

/-- The values `total_sync_err` ever takes (R25, R113): 2^n - 1 for n up to 7, and 255 where SyncLost left it. -/
def reachableTotals : List Nat := [0, 1, 3, 7, 15, 31, 63, 127, 255]

/-- The invariants of a `Present` state (R26, R37, R113, U19). -/
structure Channel.Inv (c : Channel) : Prop where
  buffer_le : c.buffer.length ≤ bufCap
  last_le : c.lastSyncErr ≤ 7
  total_mem : c.totalSyncErr ∈ reachableTotals
  total_lt : c.syncState = .synced → c.totalSyncErr < frameLen
  frameNo_unknown : c.frameNo = .unknown
  scores_zero : c.scr ≠ .auto → c.scrStat = zeroScores

/-- The invariants of a whole state between two host operations: the owner presents the words, no Frame and no
DecodedFrame outlives an operation (R32), and a `Present` state meets its own. -/
structure State.Inv (s : State) : Prop where
  issuer_owner : s.issuer = .owner
  no_frame : s.fr = none
  no_decoded : s.df = none
  channel : ∀ c, s.inst = some c → c.Inv

/-- The marker mismatches at offset p written as the sum of R100: over i in 1..7, whether the symbol at p + i differs
from `MARKER[i]`, the seven values of R57. -/
def markerErrors (b : List Symbol) (p : Nat) : Nat :=
  ([(1, true), (2, false), (3, true), (4, false), (5, false), (6, true), (7, true)].map
    fun im => if b[p + im.1]? = some im.2 then 0 else 1).sum

/-- The combined mismatches of a candidate offset and the offset one frame later (R101, R102). -/
def pairErrors (b : List Symbol) (o : Nat) : Nat := markerErrors b o + markerErrors b (o + 160)

/-- The events a model may not leave out: every event but `DIAG` (R83, R212). -/
def Event.isMandatory : Event → Bool
  | .reasmReset => true
  | .reasmDispatch _ _ => true
  | .diag _ => false

/-- The mandatory events of a list, in their order. -/
def mandatory (es : List Event) : List Event := es.filter Event.isMandatory

/-- Every `DIAG` event of a list is this one (R83, R212: it may be there or not). -/
def OnlyDiag (es : List Event) (d : Diag) : Prop := ∀ x, Event.diag x ∈ es → x = d

/-- No `DIAG` event is in the list. -/
def NoDiag (es : List Event) : Prop := ∀ x, Event.diag x ∉ es

/-- The symbols of a dispatch. -/
def Event.isDispatch : Event → Bool
  | .reasmReset => false
  | .reasmDispatch _ _ => true
  | .diag _ => false

/-- The loop of R180's pseudocode, line by line: from an instance, a status and the events so far to those at its
return. -/
inductive LoopRuns (P : Config.Params) :
    Channel → Status → List Event → Channel → Status → List Event → Prop where
  | noFrameYet {c c1 st es} (h : extract c = .ok (c1, .noFrameYet)) : LoopRuns P c st es c1 st es
  | syncLost {c c1 st es} (h : extract c = .ok (c1, .syncLost)) :
    LoopRuns P c st es { c1 with syncState := .notSynced } st (emitDiag P es .syncLost)
  | frame {c c1 c2 c' f r st st' es es2 es'} (h : extract c = .ok (c1, .frame f))
    (hp : procFrame P c1 f es = (c2, r, es2))
    (hl : LoopRuns P { c2 with frameNo := nextFrameNo c2.frameNo f.no } (nextStatus st r) es2 c' st' es') :
    LoopRuns P c st es c' st' es'

/-- The pseudocode of R180 as a whole, from the instance to the instance, the status and the events at its return. -/
inductive DriveRuns (P : Config.Params) : Channel → Channel → Status → List Event → Prop where
  | notFound {c c1} (hs : c.syncState = .notSynced) (h : syncAcq c = .ok (c1, .notFound)) :
    DriveRuns P c c1 .idle []
  | found {c c1 c' st es} (hs : c.syncState = .notSynced) (h : syncAcq c = .ok (c1, .found))
    (hl : LoopRuns P { c1 with syncState := .synced, frameNo := .unknown } .idle
      (emitDiag P (emit [] .reasmReset) .syncAcquired) c' st es) :
    DriveRuns P c c' st es
  | synced {c c' st es} (hs : c.syncState = .synced) (hl : LoopRuns P c .idle [] c' st es) :
    DriveRuns P c c' st es

/-- One SCRDETECT after another on a sequence of Frames (R168). -/
def detectOn (P : Config.Params) (c : Channel) (fs : List Frame) : Channel :=
  fs.foldl (fun c f => (scrDetect P c f []).1) c

/-- The step neither faults nor refuses. -/
def Answers (o : Host.Outcome State Fault Refusal) : Prop := ∃ t, o = .next t

end Sys2Proof.Machine
end

