-- ==== Sys2Proof/WellFormed.lean ====
section
/-! DEFINITION. When an operation has a word (`fits`: every operand in its field, R79), and when that word keeps its
layout (`layout`: R76, R77, R80). What an operation that breaks its layout does is its meaning, not said here. -/

namespace Sys2Proof

/-- Every operand lies in the field its word gives it (R77, R79). -/
def Instr.fits : Instr → Bool
  | .create _ _ _ => true
  | .feed n => decide (n < 2048)
  | .process _ => true
  | .getScr _ => true
  | .setScr _ _ v => decide (v < 128)
  | .getScrConfidence _ => true
  | .setScrConfidence n => decide (n < 2048)
  | .markerCmp _ => true
  | .syncAcq _ => true
  | .extract _ => true
  | .diffDec1 _ => true
  | .chDec _ => true
  | .deinterleave _ => true
  | .diffDec2 _ => true
  | .descramble _ => true
  | .scrDetect _ => true
  | .procFrame _ => true
  | .cchProc _ => true
  | .tchProc _ => true

/-- The reserved bits of the word are zero, and codes name a value (R77, R80). -/
def Instr.layout : Instr → Bool
  | .create rsv kind band => rsv == 0 && decide (kind.toNat < 2) && decide (band.toNat < 2)
  | .feed _ => true
  | .process arg => arg == 0
  | .getScr arg => arg == 0
  | .setScr rsv auto v => rsv == 0 && (!auto || v == 0)
  | .getScrConfidence arg => arg == 0
  | .setScrConfidence _ => true
  | .markerCmp arg => arg == 0
  | .syncAcq arg => arg == 0
  | .extract arg => arg == 0
  | .diffDec1 arg => arg == 0
  | .chDec arg => arg == 0
  | .deinterleave arg => arg == 0
  | .diffDec2 arg => arg == 0
  | .descramble arg => arg == 0
  | .scrDetect arg => arg == 0
  | .procFrame arg => arg == 0
  | .cchProc arg => arg == 0
  | .tchProc arg => arg == 0

/-- A well-formed operation: it has a word, and the word keeps its layout. -/
def Instr.wellFormed (i : Instr) : Bool := i.fits && i.layout

end Sys2Proof
end

