-- ==== Sys2Proof/Certificates/Slice0/Obligations.lean ====
section
/-! DEFINITION. The statements about the block. A statement about the effect of an operation gives the whole next
state, so that it is also the operation's frame. `c.buffer`, `c.scrStat` and the other fields are those of R20 to R34.
"Presented by the block" (`s.issuer = .block`) is how the model runs one internal operation alone (assumption log 2). -/

open Sys2Proof Sys2Proof.Machine

/-! Words -/

/-- A step runs the operation its word names, from start to end, and takes nothing else (R61, R192). -/
def Obligations.StepRunsTheDecodedOperation : Prop :=
  ∀ (s : State) (w : OpWord) (rest : List OpWord) (i : Instr), s.opIn = w :: rest → decode w = .ok i →
    step s = exec i { s with opIn := rest }

/-- The reserved `op` values 00000, 01000 to 01111, 11100 to 11111 answer BadOperation and change nothing (R80). -/
def Obligations.ReservedOpAnswersBadOperation : Prop :=
  ∀ (s : State) (w : OpWord) (rest : List OpWord), s.opIn = w :: rest →
    (w.toNat / 2048 = 0 ∨ (8 ≤ w.toNat / 2048 ∧ w.toNat / 2048 ≤ 15) ∨ 28 ≤ w.toNat / 2048) →
    step s = .next { s with opIn := rest, result := some (.err .badOperation), events := [] }

/-- With no operation issued, nothing happens to the state (R214, R224); that `step` can be asked then is the model's
choice (log 1). -/
def Obligations.NothingHappensBetweenOperations : Prop :=
  ∀ s : State, s.opIn = [] → step s = .next s

/-- No bit of an encoding is dropped: every operation whose operands fit their fields is read back from its word. -/
def Obligations.DecodeOfEncode : Prop :=
  ∀ i : Instr, i.fits = true → decode (encode i) = .ok i

/-- Every word has one reading: what the decoder reads has that word, and its operands fit. -/
def Obligations.EncodeOfDecode : Prop :=
  ∀ (w : OpWord) (i : Instr), decode w = .ok i → i.fits = true ∧ encode i = w

/-- Words of the spec's vectors (V-HOST, P1 to P6) decode to the operations they stand for. -/
def Obligations.SpecWordsDecode : Prop :=
  decode 0x0801 = .ok (.create 0 0 1) ∧ decode 0x0804 = .ok (.create 0 1 0) ∧ decode 0x0811 = .ok (.create 1 0 1) ∧
  decode 0x1140 = .ok (.feed 320) ∧ decode 0x1800 = .ok (.process 0) ∧ decode 0x2000 = .ok (.getScr 0) ∧
  decode 0x287F = .ok (.setScr 0 false 127) ∧ decode 0x2880 = .ok (.setScr 0 true 0) ∧
  decode 0x2885 = .ok (.setScr 0 true 5) ∧ decode 0x3000 = .ok (.getScrConfidence 0) ∧
  decode 0x3802 = .ok (.setScrConfidence 2) ∧ decode 0x9000 = .ok (.extract 0) ∧
  decode 0x0000 = .error (.reservedOp 0)

/-- The enumeration codes and the bits of Scr and FrameNo values (R75, and R78 for Scr). The places of a FrameNo's two
fields in one word are the model's choice (log 12). -/
def Obligations.EnumerationCodes : Prop :=
  (∀ b : Band, bandOfCode b.code = some b) ∧ Band.vhf.code = 0 ∧ Band.uhf.code = 1 ∧ bandOfCode 2 = none ∧
  bandOfCode 3 = none ∧ (∀ k : ChannelKind, channelKindOfCode k.code = some k) ∧ ChannelKind.control.code = 0 ∧
  ChannelKind.traffic.code = 1 ∧ channelKindOfCode 2 = none ∧ channelKindOfCode 3 = none ∧
  SyncState.notSynced.code = 0 ∧ SyncState.synced.code = 1 ∧ Status.idle.code = 0 ∧ Status.unsupported.code = 1 ∧
  Scr.auto.bits = 0x80 ∧ (∀ v : Fin 128, (Scr.known v).bits.toNat = v.val) ∧
  FrameNo.unknown.bits = 0 ∧ (∀ n : Fin 200, (FrameNo.known n).bits.toNat = 256 + n.val) ∧
  [ErrorKind.configError, .syncNotFound, .syncLost, .channelDecodeError, .frameTypeMismatch, .crcMismatch,
    .unsupportedConfiguration, .badOperand, .badOperation, .noInstance].map (fun k => errorCode (some k)) =
    [1, 2, 3, 4, 5, 6, 7, 8, 9, 10] ∧ errorCode none = 0

/-! Reset and invariants -/

/-- Before the first CREATE the state is Absent and meets the invariant. -/
def Obligations.ResetMeetsTheInvariant : Prop := State.reset.inst = none ∧ State.reset.Inv

/-- Every step keeps the invariant: buffer at most 1600, `last_sync_err` at most 7, `total_sync_err` one of its
reachable values and below 160 while Synced, `frame_no` Unknown, scores zero while `scr` is Known, no Frame between
operations (R26, R32, R37, R113, U19; the spec marks these as derived). -/
def Obligations.StepKeepsTheInvariant : Prop :=
  ∀ s t : State, s.Inv → step s = .next t → t.Inv

/-- From a good state a step never faults and never refuses, but for a FEED that its symbols do not follow (R64, R200). -/
def Obligations.GoodStatesNeverStop : Prop :=
  ∀ s : State, s.Inv →
    (∀ w rest n, s.opIn = w :: rest → decode w = .ok (.feed n) → n ≤ s.symIn.length) → ∃ t, step s = .next t

/-! Host operations -/

/-- CREATE with valid operands yields exactly the state of R40's table, whatever the state was. -/
def Obligations.CreateMakesTheFreshInstance : Prop :=
  ∀ (s : State) (b : Band) (k : ChannelKind),
    exec (.create 0 k.code b.code) s = .next { s with
      inst := some { band := b, channelKind := k, syncState := .notSynced, lastSyncErr := 0, totalSyncErr := 0,
                     frameNo := .unknown, scr := .auto, scrGuess := 0, scrConfidence := 50,
                     scrStat := Vector.replicate 128 0, buffer := [] },
      fr := none, df := none, result := some .ok, events := [] }

/-- CREATE with an invalid code is a ConfigError (before anything else), with a reserved bit a BadOperand; the state
stays (R80, R201, R215). -/
def Obligations.CreateRefusesIllegalWords : Prop :=
  ErrorKind.configError.code = 1 ∧
  ∀ (s : State) (rsv : BitVec 7) (kind band : BitVec 2),
    (2 ≤ kind.toNat ∨ 2 ≤ band.toNat →
      exec (.create rsv kind band) s = .next { s with result := some (.err .configError), events := [] }) ∧
    (kind.toNat < 2 → band.toNat < 2 → rsv ≠ 0 →
      exec (.create rsv kind band) s = .next { s with result := some (.err .badOperand), events := [] })

/-- FEED appends the first min(n, 1600 - BufLen) symbols in order and returns their number; the rest is discarded
(R182). -/
def Obligations.FeedAppendsWhatFits : Prop :=
  ∀ (s : State) (c : Channel) (n : Nat), s.inst = some c → n ≤ s.symIn.length →
    exec (.feed n) s = .next { s with
      inst := some { c with buffer := c.buffer ++ s.symIn.take (min n (1600 - c.buffer.length)) },
      symIn := s.symIn.drop n, result := some (.consumed (min n (1600 - c.buffer.length))), events := [] }

/-- FEED(x) then FEED(y) leaves the same buffer as FEED(x ++ y), and the two counts add up (R191, which the spec
marks as derived). -/
def Obligations.FeedSplits : Prop :=
  ∀ (s : State) (c : Channel) (n m : Nat), s.inst = some c → n + m ≤ s.symIn.length →
    ∃ t1 t2 t a b, exec (.feed n) s = .next t1 ∧ exec (.feed m) t1 = .next t2 ∧ exec (.feed (n + m)) s = .next t ∧
      t2.inst = t.inst ∧ t2.symIn = t.symIn ∧ t1.result = some (.consumed a) ∧ t2.result = some (.consumed b) ∧
      t.result = some (.consumed (a + b))

/-- The model's choice (log 1, D24): a FEED word that fewer symbols follow than it announces is refused. -/
def Obligations.FeedWithoutItsSymbolsIsRefused : Prop :=
  ∀ (s : State) (c : Channel) (n : Nat), s.inst = some c → s.symIn.length < n →
    exec (.feed n) s = .refused .symbolsMissing

/-- GET_SCR, GET_SCR_CONFIDENCE and SET_SCR_CONFIDENCE read and write the one field of their rule and nothing else
(R183, R185, R186). -/
def Obligations.AccessorsUseOneField : Prop :=
  ∀ (s : State) (c : Channel) (n : Nat), s.inst = some c →
    exec (.getScr 0) s = .next { s with result := some (.scr c.scr), events := [] } ∧
    exec (.getScrConfidence 0) s = .next { s with result := some (.confidence c.scrConfidence), events := [] } ∧
    exec (.setScrConfidence n) s =
      .next { s with inst := some { c with scrConfidence := n }, result := some .ok, events := [] }

/-- SET_SCR writes the setting and clears all scores, also for Auto and for the current value; a reserved bit, an auto
word with a value, and a value above 127 are BadOperand with no change (R184). -/
def Obligations.SetScrWritesAndClears : Prop :=
  ∀ (s : State) (c : Channel) (rsv : BitVec 3) (v : Nat), s.inst = some c →
    exec (.setScr 0 true 0) s =
      .next { s with inst := some { c with scr := .auto, scrStat := Vector.replicate 128 0 },
                     result := some .ok, events := [] } ∧
    (∀ h : v < 128, exec (.setScr 0 false v) s =
      .next { s with inst := some { c with scr := .known ⟨v, h⟩, scrStat := Vector.replicate 128 0 },
                     result := some .ok, events := [] }) ∧
    (127 < v → exec (.setScr 0 false v) s = .next { s with result := some (.err .badOperand), events := [] }) ∧
    (v ≠ 0 → exec (.setScr 0 true v) s = .next { s with result := some (.err .badOperand), events := [] }) ∧
    (rsv ≠ 0 → ∀ a, exec (.setScr rsv a v) s = .next { s with result := some (.err .badOperand), events := [] })

/-- PROCESS, GET_SCR and GET_SCR_CONFIDENCE with a nonzero `arg` are BadOperand with no change (R80). -/
def Obligations.NonzeroArgIsBadOperand : Prop :=
  ∀ (s : State) (c : Channel) (arg : Arg), s.inst = some c → arg ≠ 0 →
    ∀ i ∈ [Instr.process arg, .getScr arg, .getScrConfidence arg],
      exec i s = .next { s with result := some (.err .badOperand), events := [] }

/-- While Absent every host operation but CREATE returns NoInstance, changes nothing and emits nothing (R193). That the
symbols which follow a FEED word leave the symbol input all the same is the model's choice (log 1). -/
def Obligations.AbsentAnswersNoInstance : Prop :=
  ∀ s : State, s.inst = none →
    (∀ i : Instr, i.isInternal = false → (∀ r k b, i ≠ .create r k b) → (∀ n, i ≠ .feed n) →
      exec i s = .next { s with result := some (.err .noInstance), events := [] }) ∧
    (∀ n, exec (.feed n) s =
      .next { s with symIn := s.symIn.drop n, result := some (.err .noInstance), events := [] })

/-- An internal identifier issued by the owner is BadOperation, with or without an instance, and changes nothing (R80,
R215). -/
def Obligations.OwnerCannotIssueInternalOperations : Prop :=
  ∀ (s : State) (i : Instr), i.isInternal = true → s.issuer = .owner →
    exec i s = .next { s with result := some (.err .badOperation), events := [] }

/-- The model's choice (log 2): presented by the block, an internal operation with a nonzero `arg` is BadOperation, and
without an instance NoInstance; nothing changes. -/
def Obligations.InternalOperationsOutsideTheirDomain : Prop :=
  ∀ (s : State) (i : Instr), i.isInternal = true → s.issuer = .block →
    (i.arg ≠ 0 → exec i s = .next { s with result := some (.err .badOperation), events := [] }) ∧
    (i.arg = 0 → s.inst = none → exec i s = .next { s with result := some (.err .noInstance), events := [] })

/-- No host operation but PROCESS emits an event; none but FEED takes symbols; none but PROCESS and CREATE changes the
synchronization fields, `frame_no`, `scr_guess` or the configuration (R194, which the spec marks as derived). -/
def Obligations.OnlyProcessEmitsAndSynchronizes : Prop :=
  ∀ (s t : State) (i : Instr), i.isInternal = false → (∀ a, i ≠ .process a) → exec i s = .next t →
    t.events = [] ∧ ((∀ n, i ≠ .feed n) → t.symIn = s.symIn) ∧
    ((∀ r k b, i ≠ .create r k b) → t.fr = s.fr ∧ t.df = s.df ∧
      ∀ c, s.inst = some c → ∃ c', t.inst = some c' ∧ c'.band = c.band ∧ c'.channelKind = c.channelKind ∧
        c'.syncState = c.syncState ∧ c'.lastSyncErr = c.lastSyncErr ∧ c'.totalSyncErr = c.totalSyncErr ∧
        c'.frameNo = c.frameNo ∧ c'.scrGuess = c.scrGuess)

/-- PRESET is CREATE followed by SET_SCR, FEED_REP one FEED of the repeated bits (R82): run, they leave the fresh
instance with that setting, and the repeated bits in its buffer. -/
def Obligations.PseudoOperationsExpand : Prop :=
  ∀ (s : State) (b : Band) (k : ChannelKind) (v : Scr) (n : Nat) (bits : List Symbol), n * bits.length ≤ 1600 →
    ∃ i j t1 t2 t3, presetOps b k v = [i, j] ∧ exec i s = .next t1 ∧ exec j t1 = .next t2 ∧
      t2.inst = some { freshChannel b k with scr := v } ∧
      exec (feedRep n bits).1 { t2 with symIn := (feedRep n bits).2 } = .next t3 ∧
      t3.inst = some { freshChannel b k with scr := v, buffer := (List.replicate n bits).flatten }

/-! The synchronizer -/

/-- MARKER_CMP(p) counts the positions i in 1..7 whose symbol at p + i differs from `MARKER[i]`: 0..7; it writes
nothing (R100). -/
def Obligations.MarkerCmpCountsMismatches : Prop :=
  ∀ (s : State) (c : Channel), s.issuer = .block → s.inst = some c → s.opP + 7 < c.buffer.length →
    markerErrors c.buffer s.opP ≤ 7 ∧
    exec (.markerCmp 0) s = .next { s with result := some (.mismatches (markerErrors c.buffer s.opP)), events := [] }

/-- The model's choice (log 6, DEDUCED): outside its operand range MARKER_CMP is the fault `readOutsideBuffer`. R52 leaves
BufRead undefined there, and R64 asks for no fault. -/
def Obligations.MarkerCmpStopsOutsideTheBuffer : Prop :=
  ∀ (s : State) (c : Channel), s.issuer = .block → s.inst = some c → c.buffer.length ≤ s.opP + 7 →
    exec (.markerCmp 0) s = .fault .readOutsideBuffer

/-- SYNC_ACQ finds the earliest offset o with o + 168 <= BufLen whose two markers have at most 1 combined mismatch,
drops what is before it and zeroes both counters; with none it drops every tested offset and changes nothing else
(R101, R102). -/
def Obligations.SyncAcqFindsTheEarliestPair : Prop :=
  ∀ (s : State) (c : Channel), s.issuer = .block → s.inst = some c →
    (∀ o, o + 168 ≤ c.buffer.length → pairErrors c.buffer o ≤ 1 → (∀ j, j < o → 1 < pairErrors c.buffer j) →
      exec (.syncAcq 0) s = .next { s with
        inst := some { c with buffer := c.buffer.drop o, lastSyncErr := 0, totalSyncErr := 0 },
        result := some (.sync .found), events := [] }) ∧
    ((∀ o, o + 168 ≤ c.buffer.length → 1 < pairErrors c.buffer o) →
      exec (.syncAcq 0) s = .next { s with
        inst := some { c with buffer := c.buffer.drop (c.buffer.length - 167) },
        result := some (.sync .notFound), events := [] })

/-! Extraction -/

/-- EXTRACT: no frame yet below 160 symbols; a good frame zeroes the counter; a bad one escalates it and is still
extracted; at 160 or more synchronization is lost and the buffer and `last_sync_err` stay (R110). -/
def Obligations.ExtractFollowsTheEscalationPolicy : Prop :=
  ∀ (s : State) (c : Channel), s.issuer = .block → s.inst = some c →
    (c.buffer.length < 160 →
      exec (.extract 0) s = .next { s with result := some (.extract .noFrameYet), events := [] }) ∧
    (160 ≤ c.buffer.length →
      (markerErrors c.buffer 0 + c.lastSyncErr ≤ 1 →
        exec (.extract 0) s = .next { s with
          inst := some { c with totalSyncErr := 0, lastSyncErr := markerErrors c.buffer 0,
                                buffer := c.buffer.drop 160 },
          fr := some { data := diffDec1 (bitsOfList 152 ((c.buffer.drop 8).take 152)), no := c.frameNo },
          result := some (.extract (.frame
            { data := diffDec1 (bitsOfList 152 ((c.buffer.drop 8).take 152)), no := c.frameNo })),
          events := [] }) ∧
      (1 < markerErrors c.buffer 0 + c.lastSyncErr → 1 + 2 * c.totalSyncErr < 160 →
        exec (.extract 0) s = .next { s with
          inst := some { c with totalSyncErr := 1 + 2 * c.totalSyncErr, lastSyncErr := markerErrors c.buffer 0,
                                buffer := c.buffer.drop 160 },
          fr := some { data := diffDec1 (bitsOfList 152 ((c.buffer.drop 8).take 152)), no := c.frameNo },
          result := some (.extract (.frame
            { data := diffDec1 (bitsOfList 152 ((c.buffer.drop 8).take 152)), no := c.frameNo })),
          events := [] }) ∧
      (1 < markerErrors c.buffer 0 + c.lastSyncErr → 160 ≤ 1 + 2 * c.totalSyncErr →
        exec (.extract 0) s = .next { s with
          inst := some { c with totalSyncErr := 1 + 2 * c.totalSyncErr },
          result := some (.extract .syncLost), events := [] }))

/-- After n bad frames the counter holds 2^n - 1; the next bad frame is extracted for n up to 6, and the eighth is lost
with the counter at 255 and its 160 symbols kept (R113, partly marked derived). -/
def Obligations.EighthBadFrameLosesSync : Prop :=
  ∀ (s : State) (c : Channel) (n : Nat), s.issuer = .block → s.inst = some c → 160 ≤ c.buffer.length →
    1 < markerErrors c.buffer 0 + c.lastSyncErr → c.totalSyncErr = 2 ^ n - 1 → n ≤ 7 →
    ∃ t c', exec (.extract 0) s = .next t ∧ t.inst = some c' ∧ c'.totalSyncErr = 2 ^ (n + 1) - 1 ∧
      (n < 7 → c'.buffer = c.buffer.drop 160 ∧ ∃ f, t.result = some (.extract (.frame f))) ∧
      (n = 7 → c'.totalSyncErr = 255 ∧ c'.buffer = c.buffer ∧ c'.lastSyncErr = c.lastSyncErr ∧
        t.result = some (.extract .syncLost))

/-- DIFFDEC1 returns, at k, the XOR of raw[0] to raw[k] (equivalently: raw[k] XOR the previous decoded symbol, seeded
with 0), and writes nothing; the transmitter's line code is its inverse in both directions (R111). -/
def Obligations.DiffDec1DecodesTheLineCode : Prop :=
  (∀ (s : State) (c : Channel), s.issuer = .block → s.inst = some c →
    ∃ out : FrameBits, exec (.diffDec1 0) s = .next { s with result := some (.symbols out), events := [] } ∧
      out.getLsbD 0 = s.opRaw.getLsbD 0 ∧
      (∀ k, k < 151 → out.getLsbD (k + 1) = (s.opRaw.getLsbD (k + 1) ^^ out.getLsbD k)) ∧
      (∀ k, k < 152 → out.getLsbD k = ((List.range (k + 1)).map s.opRaw.getLsbD).foldl xor false)) ∧
  (∀ x : FrameBits, diffDec1 (lineEncode x) = x ∧ lineEncode (diffDec1 x) = x)

/-! The transforms -/

/-- CHDEC: each block over its own circular view, the outputs concatenated, `count` the number of set flags (R120,
R121). -/
def Obligations.ChDecDecodesBothBlocks : Prop :=
  ∀ (s : State) (c : Channel) (f : Frame), s.issuer = .block → s.inst = some c → s.fr = some f →
    ∃ d n, exec (.chDec 0) s = .next { s with df := some d, result := some (.decoded d n), events := [] } ∧
      d.no = f.no ∧ n = ((List.range 76).filter fun i => d.err.getLsbD i).length ∧
      (∀ i, i < 26 →
        d.data.getLsbD i = (f.data.getLsbD ((2 * i + 2) % 52) ^^ f.data.getLsbD ((2 * i + 3) % 52)) ∧
        d.err.getLsbD i = ((f.data.getLsbD ((2 * i + 5) % 52) ^^ f.data.getLsbD ((2 * i + 6) % 52) ^^
          f.data.getLsbD ((2 * i + 7) % 52)) ^^ d.data.getLsbD i)) ∧
      (∀ i, i < 50 →
        d.data.getLsbD (26 + i) =
          (f.data.getLsbD (52 + (2 * i + 2) % 100) ^^ f.data.getLsbD (52 + (2 * i + 3) % 100)) ∧
        d.err.getLsbD (26 + i) = ((f.data.getLsbD (52 + (2 * i + 5) % 100) ^^
          f.data.getLsbD (52 + (2 * i + 6) % 100) ^^ f.data.getLsbD (52 + (2 * i + 7) % 100)) ^^
          d.data.getLsbD (26 + i)))

/-- The inputs with no error flag are exactly the encoded blocks, and decode to what was encoded (R123, which the spec
marks as derived). -/
def Obligations.ErrorFreeInputsAreTheCode : Prop :=
  (∀ (b : DecodedBits) (no : FrameNo), chDec { data := chEnc b, no := no } = { data := b, err := 0, no := no }) ∧
  (∀ f : Frame, errorCount (chDec f) = 0 → f.data = chEnc (chDec f).data)

/-- One wrong symbol in an error-free frame sets two or three flags and flips exactly one decoded bit (R122, in the
part the spec marks as derived). -/
def Obligations.OneWrongSymbolIsDetected : Prop :=
  ∀ (b : DecodedBits) (no : FrameNo) (m : Nat), m < 152 →
    let d := chDec { data := xorAt (chEnc b) m true, no := no }
    errorCount d = (if m % 2 = 1 then 3 else 2) ∧ ∃ i, i < 76 ∧ d.data = xorAt b i true

/-- DEINTERLEAVE in band UHF: output j takes input T[j] of the UHF data table, and nothing but `FR.data` changes; with
the inverse permutation it restores the frame, the identity leaves it, and the number of ones stays (R130). -/
def Obligations.DeinterleaveGathersThroughTheTable : Prop :=
  (∀ (s : State) (c : Channel) (f : Frame), s.issuer = .block → s.inst = some c → c.band = .uhf → s.fr = some f →
    ∃ y : FrameBits, exec (.deinterleave 0) s =
        .next { s with fr := some { data := y, no := f.no }, result := none, events := [] } ∧
      ∀ j : Fin 152, y.getLsbD j = f.data.getLsbD (Config.params.ilvUhfData j)) ∧
  (∀ (T : Equiv.Perm (Fin 152)) (x : FrameBits),
    deinterleave T.symm (deinterleave T x) = x ∧ deinterleave T (deinterleave T.symm x) = x ∧
    countOnes (deinterleave T x) = countOnes x ∧ deinterleave (1 : Equiv.Perm (Fin 152)) x = x)

/-- The descending in-place pass of DIFFDEC2 equals the parallel form: position 0 stays, position j becomes in[j] XOR
in[j - DIST[j]], all reads taken from the input (R140). -/
def Obligations.DiffDec2EqualsItsParallelForm : Prop :=
  ∀ (s : State) (c : Channel) (f : Frame), s.issuer = .block → s.inst = some c → s.fr = some f →
    ∃ y : FrameBits, exec (.diffDec2 0) s =
        .next { s with fr := some { data := y, no := f.no }, result := none, events := [] } ∧
      y.getLsbD 0 = f.data.getLsbD 0 ∧
      ∀ j, 1 ≤ j → j ≤ 151 → y.getLsbD j = (f.data.getLsbD j ^^ f.data.getLsbD (j - Config.params.dist j))

/-- The ascending precode of the transmitter and DIFFDEC2 are inverse to each other (R141, which the spec marks as
derived). -/
def Obligations.PrecodeRoundTrip : Prop :=
  ∀ (P : Config.Params) (x : FrameBits),
    diffDec2 P.dist (precode P.dist x) = x ∧ precode P.dist (diffDec2 P.dist x) = x

/-- The scrambling sequence: seven ones, then S[k] = S[k-1] XOR S[k-7] (R150). The 64 ones in 127, the recurrence
continued modulo 127 and the least period are what R150 itself marks as derived. -/
def Obligations.ScramblingSequenceRecurrence : Prop :=
  (∀ k, k < 7 → scrSeq k = true) ∧ (∀ k, k < 127 → 7 ≤ k → scrSeq k = (scrSeq (k - 1) ^^ scrSeq (k - 7))) ∧
  countOnes scrTable = 64 ∧
  (∀ k, 7 ≤ k → scrSeq (k % 127) = (scrSeq ((k - 1) % 127) ^^ scrSeq ((k - 7) % 127))) ∧
  (∀ d, 0 < d → d < 127 → ∃ k, k < 127 ∧ scrSeq ((k + d) % 127) ≠ scrSeq k)

/-- DESCRAMBLE(c) XORs symbol k with S[(k + c) mod 127], and is the identity for c = 0; it is its own inverse, and the
128 constants give 128 different transforms (R151). -/
def Obligations.DescrambleFollowsTheSequence : Prop :=
  (∀ (s : State) (c : Channel) (f : Frame), s.issuer = .block → s.inst = some c → s.fr = some f →
    ∃ y : FrameBits, exec (.descramble 0) s =
        .next { s with fr := some { data := y, no := f.no }, result := none, events := [] } ∧
      (s.opC = 0 → y = f.data) ∧
      (s.opC ≠ 0 → ∀ k, k < 152 → y.getLsbD k = (f.data.getLsbD k ^^ scrSeq ((k + s.opC.val) % 127)))) ∧
  (∀ (k : Fin 128) (x : FrameBits), descramble k (descramble k x) = x) ∧
  (∀ (k l : Fin 128) (x : FrameBits), descramble k x = descramble l x → k = l)

/-- TRIAL_DECODE is DESCRAMBLE, DIFFDEC2, DEINTERLEAVE, CHDEC in this order (R160): run one after another by the block, on
`FR` itself, the four operations leave in `DF` what `trialDecode` computes from the Frame as it was. -/
def Obligations.TrialDecodeIsTheTransformChain : Prop :=
  ∀ (s : State) (c : Channel) (f : Frame), s.issuer = .block → s.inst = some c → c.band = .uhf → s.fr = some f →
    ∃ t1 t2 t3 t4, exec (.descramble 0) s = .next t1 ∧ exec (.diffDec2 0) t1 = .next t2 ∧
      exec (.deinterleave 0) t2 = .next t3 ∧ exec (.chDec 0) t3 = .next t4 ∧
      t4.df = some (trialDecode Config.params f s.opC) ∧
      t4.result = some (.decoded (trialDecode Config.params f s.opC) (errorCount (trialDecode Config.params f s.opC)))

/-- In band VHF no deinterleave table exists: DEINTERLEAVE, SCRDETECT and CCH_PROC answer the unsupported
configuration and change nothing (R132; running them there alone is the model's, log 2). -/
def Obligations.VhfHasNoTable : Prop :=
  ∀ (s : State) (c : Channel) (f : Frame), s.issuer = .block → s.inst = some c → c.band = .vhf → s.fr = some f →
    exec (.deinterleave 0) s =
      .next { s with result := some (.err .unsupportedConfiguration), events := [] } ∧
    exec (.scrDetect 0) s = .next { s with result := some (.err .unsupportedConfiguration), events := [] } ∧
    exec (.cchProc 0) s = .next { s with result := some (.frame .unsupported), events := [] }

/-- The model's choice (log 3): the operations on `FR` are refused while no Frame exists (R32). -/
def Obligations.FrameOperationsNeedAFrame : Prop :=
  ∀ (s : State) (c : Channel), s.issuer = .block → s.inst = some c → s.fr = none →
    ∀ i ∈ [Instr.chDec 0, .deinterleave 0, .diffDec2 0, .descramble 0, .scrDetect 0, .procFrame 0, .cchProc 0],
      exec i s = .refused .noFrame

/-! The detector -/

/-- SCRDETECT: every score +1 on success and -2 floored at 0 on failure; `best` the lowest index of the largest score;
`scr_guess` is `best`; the commit exactly when `best` leads every other score by more than the margin, and then `scr`
is Known(best) and every score 0 (R162, R163, R164, R166). -/
def Obligations.ScrDetectScoresSelectsCommits : Prop :=
  ∀ (s : State) (c : Channel) (f : Frame), s.issuer = .block → s.inst = some c → c.band = .uhf → s.fr = some f →
    let score : Fin 128 → Nat := fun j =>
      if errorCount (trialDecode Config.params f j) = 0 ∧
          Config.params.crcCheck (trialDecode Config.params f j).data = true
      then c.scrStat[j] + 1 else c.scrStat[j] - 2
    ∃ (best : Fin 128) (es : List Event),
      (∀ j, score j ≤ score best) ∧ (∀ j, j < best → score j < score best) ∧
      ((∃ j, j ≠ best ∧ score best ≤ score j + c.scrConfidence) → es = [] ∧
        exec (.scrDetect 0) s = .next { s with
          inst := some { c with scrStat := Vector.ofFn score, scrGuess := best }, result := none, events := es }) ∧
      ((∀ j, j ≠ best → score j + c.scrConfidence < score best) → mandatory es = [] ∧ OnlyDiag es (.scrLocked best) ∧
        exec (.scrDetect 0) s = .next { s with
          inst := some { c with scrStat := Vector.replicate 128 0, scrGuess := best, scr := .known best },
          result := none, events := es })

/-- Convergence: on frames that pass for one constant only, from zero scores in Auto, the detector commits to it on
exactly the frame number confidence + 1 (R168, whose count the spec marks as derived). -/
def Obligations.DetectorConverges : Prop :=
  ∀ (P : Config.Params) (c : Channel) (k : Fin 128) (fs : List Frame),
    (∀ f ∈ fs, ∀ j, trialPasses P f j = decide (j = k)) → c.scr = .auto → c.scrStat = Vector.replicate 128 0 →
    (fs.length ≤ c.scrConfidence → (detectOn P c fs).scr = .auto ∧
      (detectOn P c fs).scrStat[k] = fs.length) ∧
    (fs.length = c.scrConfidence + 1 → (detectOn P c fs).scr = .known k ∧ (detectOn P c fs).scrGuess = k ∧
      (detectOn P c fs).scrStat = Vector.replicate 128 0)

/-! The frame processors -/

/-- CCH_PROC with the effective constant: the gates in the order error flags, type, CRC; the first that fails resets
the Reassembler and drops the frame; with none the whole payload is dispatched with index 2 * IDX_HI + IDX_LO. No
instance state is written (R171, R173, R174). -/
def Obligations.CchProcGatesInOrder : Prop :=
  ∀ (s : State) (c : Channel) (f : Frame), s.issuer = .block → s.inst = some c → c.band = .uhf → s.fr = some f →
    ∃ (k : Fin 128) (d : Decoded) (r : FrameResult) (es : List Event),
      (∀ v, c.scr = .known v → k = v) ∧ (c.scr = .auto → k = c.scrGuess) ∧ d = trialDecode Config.params f k ∧
      exec (.cchProc 0) s = .next { s with df := some d, result := some (.frame r), events := es } ∧
      (if errorCount d ≠ 0 then
        r = .dropped .channelDecodeError ∧ mandatory es = [.reasmReset] ∧
          OnlyDiag es (.frameErr f.no .channelDecodeError k)
      else if d.data.getLsbD Config.params.typePos ≠ Config.params.typeData then
        r = .dropped .frameTypeMismatch ∧ mandatory es = [.reasmReset] ∧
          OnlyDiag es (.frameErr f.no .frameTypeMismatch k)
      else if Config.params.crcCheck d.data = false then
        r = .dropped .crcMismatch ∧ mandatory es = [.reasmReset] ∧ OnlyDiag es (.frameErr f.no .crcMismatch k)
      else
        r = .dispatched ∧ ∃ idx : Fin 4,
          idx.val = 2 * (d.data.getLsbD Config.params.idxHiPos).toNat +
            (d.data.getLsbD Config.params.idxLoPos).toNat ∧
          mandatory es = [.reasmDispatch d.data idx] ∧
          OnlyDiag es (.frameOk f.no idx (d.data.getLsbD Config.params.st0Pos) (d.data.getLsbD Config.params.st1Pos)
            k))

/-- TCH_PROC returns Unsupported and does nothing else (R172). -/
def Obligations.TchProcIsUnsupported : Prop :=
  ∀ (s : State) (c : Channel), s.issuer = .block → s.inst = some c →
    exec (.tchProc 0) s = .next { s with result := some (.frame .unsupported), events := [] }

/-- PROC_FRAME: Traffic or VHF is Unsupported with no state change and no event; else, if `scr` is Auto, SCRDETECT
first; then CCH_PROC (R170). The Frame and the DecodedFrame end with it (R32). -/
def Obligations.ProcFrameDispatchesOnTheConfiguration : Prop :=
  ∀ (s : State) (c : Channel) (f : Frame), s.issuer = .block → s.inst = some c → s.fr = some f →
    (c.channelKind = .traffic ∨ c.band = .vhf →
      exec (.procFrame 0) s =
        .next { s with fr := none, df := none, result := some (.frame .unsupported), events := [] }) ∧
    (c.channelKind = .control → c.band = .uhf → ∀ v, c.scr = .known v →
      ∃ t, exec (.cchProc 0) s = .next t ∧ exec (.procFrame 0) s = .next { t with fr := none, df := none }) ∧
    (c.channelKind = .control → c.band = .uhf → c.scr = .auto →
      ∃ t1 t2 t, exec (.scrDetect 0) s = .next t1 ∧ exec (.cchProc 0) t1 = .next t2 ∧
        exec (.procFrame 0) s = .next t ∧ mandatory t.events = mandatory t2.events ∧
        t = { t2 with fr := none, df := none, events := t.events })

/-! PROCESS -/

/-- PROCESS always completes, and what it leaves is a run of R180's pseudocode: acquisition when NotSynced, the
Reassembler reset on success, the extraction loop to `NoFrameYet` or `SyncLost`. -/
def Obligations.ProcessRunsTheDriveLoop : Prop :=
  ∀ (s : State) (c : Channel), s.inst = some c →
    ∃ c' st es, DriveRuns Config.params c c' st es ∧
      exec (.process 0) s = .next { s with
        inst := some c', fr := none, df := none, result := some (.status st), events := es }

/-- Every run of R180's pseudocode is what PROCESS does: wherever a run from the instance ends, PROCESS ends there too,
with that instance, that status and those events. -/
def Obligations.EveryRunOfTheDriveLoopIsProcess : Prop :=
  ∀ (s : State) (c c' : Channel) (st : Status) (es : List Event), s.inst = some c →
    DriveRuns Config.params c c' st es →
    exec (.process 0) s = .next { s with
      inst := some c', fr := none, df := none, result := some (.status st), events := es }

/-- When PROCESS returns the block is NotSynced, or Synced with fewer than 160 symbols; the buffer lost symbols at its
front only; at most floor(BufLen / 160) frames were dispatched; a failed acquisition leaves at most 167 symbols; the
configuration and the margin stay (R189, R241, which the spec marks as derived). -/
def Obligations.ProcessDrainsTheBuffer : Prop :=
  ∀ (s : State) (c : Channel), s.inst = some c →
    ∃ t c', exec (.process 0) s = .next t ∧ t.inst = some c' ∧
      (c'.syncState = .notSynced ∨ c'.buffer.length < 160) ∧ c'.buffer <:+ c.buffer ∧
      (t.events.filter Event.isDispatch).length ≤ c.buffer.length / 160 ∧
      (c.syncState = .notSynced → mandatory t.events = [] → c'.buffer.length ≤ 167) ∧
      c'.band = c.band ∧ c'.channelKind = c.channelKind ∧ c'.scrConfidence = c.scrConfidence ∧
      t.symIn = s.symIn ∧ t.opIn = s.opIn

/-- A second PROCESS after one that returned Synced changes no instance state, returns Idle and emits nothing (R190 f,
which the spec marks as derived). -/
def Obligations.ProcessIsIdempotentWhenDrained : Prop :=
  ∀ (s t : State) (c' : Channel), exec (.process 0) s = .next t → t.inst = some c' → c'.syncState = .synced →
    exec (.process 0) t = .next { t with fr := none, df := none, result := some (.status .idle), events := [] }

/-- SyncLost inside PROCESS: the escalated counter is kept, the buffer is not consumed, the block is NotSynced, and no
Reassembler reset is emitted at that moment (R203). -/
def Obligations.SyncLossKeepsTheBuffer : Prop :=
  ∀ (s : State) (c : Channel), s.inst = some c → c.syncState = .synced → 160 ≤ c.buffer.length →
    1 < markerErrors c.buffer 0 + c.lastSyncErr → 160 ≤ 1 + 2 * c.totalSyncErr →
    ∃ es, mandatory es = [] ∧ OnlyDiag es .syncLost ∧
      exec (.process 0) s = .next { s with
        inst := some { c with totalSyncErr := 1 + 2 * c.totalSyncErr, syncState := .notSynced },
        fr := none, df := none, result := some (.status .idle), events := es }

/-- A known `frame_no` counts the extracted frames modulo 200, an unknown one stays unknown (R187). In a PROCESS that
starts Synced the extracted frames are the 160-symbol units gone from the buffer. -/
def Obligations.FrameNumberCountsFrames : Prop :=
  ∀ (s t : State) (c c' : Channel), s.inst = some c → c.syncState = .synced → exec (.process 0) s = .next t →
    t.inst = some c' →
    (c.frameNo = .unknown → c'.frameNo = .unknown) ∧
    (∀ n : Fin 200, c.frameNo = .known n →
      ∃ m : Fin 200, c'.frameNo = .known m ∧ m.val = (n.val + (c.buffer.length - c'.buffer.length) / 160) % 200)

/-- An unsupported configuration consumes its frames, decodes nothing, calls no collaborator but the reset of an
acquisition, changes no score and no setting, and is reported exactly when a frame was extracted (R207). -/
def Obligations.UnsupportedConfigurationIsReported : Prop :=
  ∀ (s t : State) (c c' : Channel), s.inst = some c → c.channelKind = .traffic ∨ c.band = .vhf →
    exec (.process 0) s = .next t → t.inst = some c' →
    c'.scr = c.scr ∧ c'.scrGuess = c.scrGuess ∧ c'.scrStat = c.scrStat ∧
    (c.syncState = .notSynced →
      (t.result = some (.status .unsupported) ∧ mandatory t.events = [.reasmReset]) ∨
      (t.result = some (.status .idle) ∧ mandatory t.events = [] ∧ c'.syncState = .notSynced)) ∧
    (c.syncState = .synced → mandatory t.events = [] ∧
      ((t.result = some (.status .unsupported) ∧ c'.buffer.length + 160 ≤ c.buffer.length) ∨
        (t.result = some (.status .idle) ∧ c'.buffer = c.buffer)))

/-- The optional diagnostics change nothing else: two implementations that differ in them alone leave the same
instance, the same status and the same mandatory events in the same order (R212). -/
def Obligations.DiagnosticsChangeNothing : Prop :=
  ∀ (P : Config.Params) (e : List Event → Diag → Bool) (c c1 c2 : Channel) (st1 st2 : Status) (es1 es2 : List Event),
    process P c = .ok (c1, st1, es1) → process { P with emitsDiag := e } c = .ok (c2, st2, es2) →
    c1 = c2 ∧ st1 = st2 ∧ mandatory es1 = mandatory es2

/-- End to end (E7): two frames built by the transmitter's five stages under constant k, fed to a NotSynced
Control/UHF instance preset to k, come out as one Reassembler reset and the two plain blocks with their indexes,
whatever the parameters, provided both blocks are typed Data and pass the CRC. -/
def Obligations.EndToEndDelivery : Prop :=
  ∀ (P : Config.Params) (k : Fin 128) (b1 b2 : DecodedBits) (h1 h2 : Symbol) (c : Channel),
    c.channelKind = .control → c.band = .uhf → c.syncState = .notSynced → c.scr = .known k →
    c.buffer = frameUnit h1 (forwardPayload P k b1) ++ frameUnit h2 (forwardPayload P k b2) →
    b1.getLsbD P.typePos = P.typeData → P.crcCheck b1 = true →
    b2.getLsbD P.typePos = P.typeData → P.crcCheck b2 = true →
    ∃ (es : List Event) (i1 i2 : Fin 4),
      process P c = .ok ({ c with syncState := .synced, lastSyncErr := 0, totalSyncErr := 0, frameNo := .unknown,
                                  buffer := [] }, .idle, es) ∧
      mandatory es = [.reasmReset, .reasmDispatch b1 i1, .reasmDispatch b2 i2] ∧
      i1.val = 2 * (b1.getLsbD P.idxHiPos).toNat + (b1.getLsbD P.idxLoPos).toNat ∧
      i2.val = 2 * (b2.getLsbD P.idxHiPos).toNat + (b2.getLsbD P.idxLoPos).toNat
end

