-- ==== Sys2Proof/Laws/Bits.lean ====
section
/-! SUPPORT. The elements of bit sequences written by index. -/

namespace Sys2Proof.Machine

@[simp] theorem getLsbD_bitsOfFn (n : Nat) (f : Nat → Bool) (k : Nat) :
    (bitsOfFn n f).getLsbD k = (decide (k < n) && f k) := by
  induction n with
  | zero => simp [bitsOfFn]
  | succ n ih =>
    simp only [bitsOfFn, BitVec.getLsbD_cons, ih]
    by_cases h : k = n
    · subst h; simp
    · have : (k < n + 1) ↔ k < n := by omega
      simp [h, this]

@[simp] theorem getElem_bitsOfFn (n : Nat) (f : Nat → Bool) (k : Nat) (hk : k < n) : (bitsOfFn n f)[k] = f k := by
  rw [← BitVec.getLsbD_eq_getElem, getLsbD_bitsOfFn]; simp [hk]

/-- Two bit sequences are equal when their elements are. -/
theorem bits_ext {n : Nat} {x y : BitVec n} (h : ∀ k, k < n → x.getLsbD k = y.getLsbD k) : x = y :=
  BitVec.eq_of_getLsbD_eq h

theorem bitsOfFn_congr {n : Nat} {f g : Nat → Bool} (h : ∀ k, k < n → f k = g k) : bitsOfFn n f = bitsOfFn n g :=
  bits_ext fun k hk => by rw [getLsbD_bitsOfFn, getLsbD_bitsOfFn, h k hk]

theorem bitsOfFn_getLsbD {n : Nat} (x : BitVec n) : bitsOfFn n x.getLsbD = x :=
  bits_ext fun k hk => by rw [getLsbD_bitsOfFn]; simp [hk]

/-- `x[j] ^= b` changes element j and no other. -/
theorem getLsbD_xorAt {n : Nat} (x : BitVec n) (j : Nat) (b : Bool) (k : Nat) (hk : k < n) :
    (xorAt x j b).getLsbD k = (if k = j then x.getLsbD k ^^ b else x.getLsbD k) := by
  unfold xorAt
  by_cases hb : b = true
  · subst hb
    by_cases hkj : k = j
    · subst hkj; simp [hk]
    · have hjk : j ≠ k := fun h => hkj h.symm
      simp [BitVec.getLsbD_twoPow, hkj, hjk]
  · have : b = false := by simpa using hb
    subst this
    simp

@[simp] theorem length_listOfBits {n : Nat} (x : BitVec n) : (listOfBits x).length = n := by
  simp [listOfBits]

@[simp] theorem bitsOfList_listOfBits {n : Nat} (x : BitVec n) : bitsOfList n (listOfBits x) = x :=
  bits_ext fun k hk => by simp [bitsOfList, listOfBits, hk, List.getD_eq_getElem?_getD]

/-- No element is 1 exactly when the sequence is zero. -/
theorem countOnes_eq_zero {n : Nat} (x : BitVec n) : countOnes x = 0 ↔ x = 0 := by
  constructor
  · intro h
    refine bits_ext fun k hk => ?_
    have := (List.sum_eq_zero_iff_forall_eq_nat.1 h) (x.getLsbD k).toNat (List.mem_map.2 ⟨k, List.mem_range.2 hk, rfl⟩)
    simpa using this
  · rintro rfl
    simp [countOnes]

end Sys2Proof.Machine
end

