-- ==== Sys2Proof/Laws/Decode.lean ====
section
/-! SUPPORT. The fields of a word that was put together from them. -/

namespace Sys2Proof

/-- Element i of a concatenation: the right part holds the low elements. -/
theorem getLsbD_concat {n m k : Nat} (h : n + m = k) (x : BitVec n) (y : BitVec m) (z : BitVec k)
    (hz : z = BitVec.cast h (x ++ y)) (i : Nat) :
    z.getLsbD i = if i < m then y.getLsbD i else x.getLsbD (i - m) := by
  subst h; subst hz
  simp only [BitVec.cast_eq, BitVec.getLsbD_append]

theorem opField_opWord (op : BitVec 5) (a : Arg) : opField (opWord op a) = op := by
  apply BitVec.eq_of_getLsbD_eq
  intro i hi
  rw [opField, BitVec.getLsbD_extractLsb', getLsbD_concat (n := 5) (m := 11) rfl op a (opWord op a) rfl]
  simp [hi]

theorem argField_opWord (op : BitVec 5) (a : Arg) : argField (opWord op a) = a := by
  apply BitVec.eq_of_getLsbD_eq
  intro i hi
  rw [argField, BitVec.getLsbD_extractLsb', getLsbD_concat (n := 5) (m := 11) rfl op a (opWord op a) rfl]
  simp [hi]

/-- A word is its two fields. -/
theorem opWord_fields (w : OpWord) : opWord (opField w) (argField w) = w := by
  apply BitVec.eq_of_getLsbD_eq
  intro i hi
  rw [getLsbD_concat (n := 5) (m := 11) rfl _ _ (opWord (opField w) (argField w)) rfl, opField, argField,
    BitVec.getLsbD_extractLsb', BitVec.getLsbD_extractLsb']
  by_cases h : i < 11
  · simp [h]
  · have : i - 11 < 5 := by omega
    have e : 11 + (i - 11) = i := by omega
    rw [if_neg h, e]; simp [this]

end Sys2Proof
end

