-- ==== Sys2Proof/Laws/State.lean ====
section
/-! SUPPORT. One lemma per field per named update of the state. -/

namespace Sys2Proof.Machine

@[simp] theorem State.answer_inst (s : State) (r : Option Result) (es : List Event) : (s.answer r es).inst = s.inst := rfl
@[simp] theorem State.answer_fr (s : State) (r : Option Result) (es : List Event) : (s.answer r es).fr = s.fr := rfl
@[simp] theorem State.answer_df (s : State) (r : Option Result) (es : List Event) : (s.answer r es).df = s.df := rfl
@[simp] theorem State.answer_opIn (s : State) (r : Option Result) (es : List Event) : (s.answer r es).opIn = s.opIn := rfl
@[simp] theorem State.answer_symIn (s : State) (r : Option Result) (es : List Event) : (s.answer r es).symIn = s.symIn := rfl
@[simp] theorem State.answer_issuer (s : State) (r : Option Result) (es : List Event) : (s.answer r es).issuer = s.issuer := rfl
@[simp] theorem State.answer_opP (s : State) (r : Option Result) (es : List Event) : (s.answer r es).opP = s.opP := rfl
@[simp] theorem State.answer_opC (s : State) (r : Option Result) (es : List Event) : (s.answer r es).opC = s.opC := rfl
@[simp] theorem State.answer_opRaw (s : State) (r : Option Result) (es : List Event) : (s.answer r es).opRaw = s.opRaw := rfl
@[simp] theorem State.answer_result (s : State) (r : Option Result) (es : List Event) : (s.answer r es).result = r := rfl
@[simp] theorem State.answer_events (s : State) (r : Option Result) (es : List Event) : (s.answer r es).events = es := rfl

@[simp] theorem State.setInst_inst (s : State) (c : Channel) : (s.setInst c).inst = some c := rfl
@[simp] theorem State.setInst_fr (s : State) (c : Channel) : (s.setInst c).fr = s.fr := rfl
@[simp] theorem State.setInst_df (s : State) (c : Channel) : (s.setInst c).df = s.df := rfl
@[simp] theorem State.setInst_opIn (s : State) (c : Channel) : (s.setInst c).opIn = s.opIn := rfl
@[simp] theorem State.setInst_symIn (s : State) (c : Channel) : (s.setInst c).symIn = s.symIn := rfl
@[simp] theorem State.setInst_issuer (s : State) (c : Channel) : (s.setInst c).issuer = s.issuer := rfl
@[simp] theorem State.setInst_opP (s : State) (c : Channel) : (s.setInst c).opP = s.opP := rfl
@[simp] theorem State.setInst_opC (s : State) (c : Channel) : (s.setInst c).opC = s.opC := rfl
@[simp] theorem State.setInst_opRaw (s : State) (c : Channel) : (s.setInst c).opRaw = s.opRaw := rfl
@[simp] theorem State.setInst_result (s : State) (c : Channel) : (s.setInst c).result = s.result := rfl
@[simp] theorem State.setInst_events (s : State) (c : Channel) : (s.setInst c).events = s.events := rfl

@[simp] theorem State.setFrame_inst (s : State) (f : Option Frame) : (s.setFrame f).inst = s.inst := rfl
@[simp] theorem State.setFrame_fr (s : State) (f : Option Frame) : (s.setFrame f).fr = f := rfl
@[simp] theorem State.setFrame_df (s : State) (f : Option Frame) : (s.setFrame f).df = s.df := rfl
@[simp] theorem State.setFrame_opIn (s : State) (f : Option Frame) : (s.setFrame f).opIn = s.opIn := rfl
@[simp] theorem State.setFrame_symIn (s : State) (f : Option Frame) : (s.setFrame f).symIn = s.symIn := rfl
@[simp] theorem State.setFrame_issuer (s : State) (f : Option Frame) : (s.setFrame f).issuer = s.issuer := rfl
@[simp] theorem State.setFrame_opP (s : State) (f : Option Frame) : (s.setFrame f).opP = s.opP := rfl
@[simp] theorem State.setFrame_opC (s : State) (f : Option Frame) : (s.setFrame f).opC = s.opC := rfl
@[simp] theorem State.setFrame_opRaw (s : State) (f : Option Frame) : (s.setFrame f).opRaw = s.opRaw := rfl
@[simp] theorem State.setFrame_result (s : State) (f : Option Frame) : (s.setFrame f).result = s.result := rfl
@[simp] theorem State.setFrame_events (s : State) (f : Option Frame) : (s.setFrame f).events = s.events := rfl

@[simp] theorem State.setDecoded_inst (s : State) (d : Option Decoded) : (s.setDecoded d).inst = s.inst := rfl
@[simp] theorem State.setDecoded_fr (s : State) (d : Option Decoded) : (s.setDecoded d).fr = s.fr := rfl
@[simp] theorem State.setDecoded_df (s : State) (d : Option Decoded) : (s.setDecoded d).df = d := rfl
@[simp] theorem State.setDecoded_opIn (s : State) (d : Option Decoded) : (s.setDecoded d).opIn = s.opIn := rfl
@[simp] theorem State.setDecoded_symIn (s : State) (d : Option Decoded) : (s.setDecoded d).symIn = s.symIn := rfl
@[simp] theorem State.setDecoded_issuer (s : State) (d : Option Decoded) : (s.setDecoded d).issuer = s.issuer := rfl
@[simp] theorem State.setDecoded_opP (s : State) (d : Option Decoded) : (s.setDecoded d).opP = s.opP := rfl
@[simp] theorem State.setDecoded_opC (s : State) (d : Option Decoded) : (s.setDecoded d).opC = s.opC := rfl
@[simp] theorem State.setDecoded_opRaw (s : State) (d : Option Decoded) : (s.setDecoded d).opRaw = s.opRaw := rfl
@[simp] theorem State.setDecoded_result (s : State) (d : Option Decoded) : (s.setDecoded d).result = s.result := rfl
@[simp] theorem State.setDecoded_events (s : State) (d : Option Decoded) : (s.setDecoded d).events = s.events := rfl

@[simp] theorem Channel.writeScr_band (c : Channel) (v : Scr) : (c.writeScr v).band = c.band := rfl
@[simp] theorem Channel.writeScr_channelKind (c : Channel) (v : Scr) : (c.writeScr v).channelKind = c.channelKind := rfl
@[simp] theorem Channel.writeScr_syncState (c : Channel) (v : Scr) : (c.writeScr v).syncState = c.syncState := rfl
@[simp] theorem Channel.writeScr_lastSyncErr (c : Channel) (v : Scr) : (c.writeScr v).lastSyncErr = c.lastSyncErr := rfl
@[simp] theorem Channel.writeScr_totalSyncErr (c : Channel) (v : Scr) : (c.writeScr v).totalSyncErr = c.totalSyncErr := rfl
@[simp] theorem Channel.writeScr_frameNo (c : Channel) (v : Scr) : (c.writeScr v).frameNo = c.frameNo := rfl
@[simp] theorem Channel.writeScr_scr (c : Channel) (v : Scr) : (c.writeScr v).scr = v := rfl
@[simp] theorem Channel.writeScr_scrGuess (c : Channel) (v : Scr) : (c.writeScr v).scrGuess = c.scrGuess := rfl
@[simp] theorem Channel.writeScr_scrConfidence (c : Channel) (v : Scr) : (c.writeScr v).scrConfidence = c.scrConfidence := rfl
@[simp] theorem Channel.writeScr_scrStat (c : Channel) (v : Scr) : (c.writeScr v).scrStat = zeroScores := rfl
@[simp] theorem Channel.writeScr_buffer (c : Channel) (v : Scr) : (c.writeScr v).buffer = c.buffer := rfl

end Sys2Proof.Machine
end

