-- ==== Sys2Proof/Laws/Ops.lean ====
section
/-! SUPPORT. What each shared operation can do, said once. -/

namespace Sys2Proof.Machine

theorem bufRead_of_le {b : List Symbol} {a n : Nat} (h : a + n ≤ b.length) :
    bufRead b a n = .ok ((b.drop a).take n) := by
  have : min n (b.length - a) = n := by omega
  simp [bufRead, List.length_take, List.length_drop, this]

theorem bufRead_of_lt {b : List Symbol} {a n : Nat} (hn : 0 < n) (h : b.length < a + n) :
    bufRead b a n = .error .readOutsideBuffer := by
  have : min n (b.length - a) ≠ n := by omega
  simp [bufRead, List.length_take, List.length_drop, this]

@[simp] theorem zeroScores_getElem (j : Nat) (h : j < 128) : zeroScores[j] = 0 := by simp [zeroScores]

theorem zeroScores_eq_replicate : zeroScores = Vector.replicate 128 0 := by
  ext i hi; simp [zeroScores]

/-- An optional event never shows among the mandatory ones. -/
@[simp] theorem mandatory_emitDiag (P : Config.Params) (es : List Event) (d : Diag) :
    mandatory (emitDiag P es d) = mandatory es := by
  unfold emitDiag mandatory
  split <;> simp [Event.isMandatory]

@[simp] theorem mandatory_nil : mandatory [] = [] := rfl

@[simp] theorem mandatory_emit_reset (es : List Event) : mandatory (emit es .reasmReset) = mandatory es ++ [.reasmReset] := by
  simp [mandatory, emit, Event.isMandatory]

@[simp] theorem mandatory_emit_dispatch (es : List Event) (x : DecodedBits) (i : Fin 4) :
    mandatory (emit es (.reasmDispatch x i)) = mandatory es ++ [.reasmDispatch x i] := by
  simp [mandatory, emit, Event.isMandatory]

@[simp] theorem errorCode_none : errorCode none = 0 := rfl

@[simp] theorem errorCode_some (k : ErrorKind) : errorCode (some k) = k.code := rfl

theorem withChannel_some {s : State} {c : Channel} (h : s.inst = some c)
    (f : Channel → Host.Outcome State Fault Refusal) : withChannel s f = f c := by
  simp [withChannel, h]

theorem withChannel_none {s : State} (h : s.inst = none) (f : Channel → Host.Outcome State Fault Refusal) :
    withChannel s f = reject s .noInstance := by
  simp [withChannel, h]

@[simp] theorem withZeroArg_zero (s : State) (k : Host.Outcome State Fault Refusal) : withZeroArg s 0#11 k = k := by
  simp [withZeroArg]

theorem withZeroArg_ne {s : State} {arg : Arg} (h : arg ≠ 0) (k : Host.Outcome State Fault Refusal) :
    withZeroArg s arg k = reject s .badOperand := if_neg h

theorem asInternal_block {s : State} {c : Channel} (hb : s.issuer = .block) (hc : s.inst = some c)
    (f : Channel → Host.Outcome State Fault Refusal) : asInternal s 0#11 f = f c := by
  simp [asInternal, hb, withChannel, hc]

theorem asInternal_owner {s : State} (hb : s.issuer = .owner) (arg : Arg)
    (f : Channel → Host.Outcome State Fault Refusal) : asInternal s arg f = reject s .badOperation := by
  simp [asInternal, hb]

theorem withFrame_some {s : State} {x : Frame} (h : s.fr = some x) (f : Frame → Host.Outcome State Fault Refusal) :
    withFrame s f = f x := by
  simp [withFrame, h]

theorem withFrame_none {s : State} (h : s.fr = none) (f : Frame → Host.Outcome State Fault Refusal) :
    withFrame s f = .refused .noFrame := by
  simp [withFrame, h]

end Sys2Proof.Machine
end

