-- ==== Sys2Proof/Laws/Transforms.lean ====
section
/-! SUPPORT. The fixed transforms and the transmitter's stages, each by its elements. -/

namespace Sys2Proof.Machine

/-- DIFFDEC1, element by element (R111). -/
theorem diffDec1_getLsbD (x : FrameBits) (k : Nat) (hk : k < 152) : (diffDec1 x).getLsbD k = runningXor x k := by
  rw [diffDec1, getLsbD_bitsOfFn]; simp [hk]

/-- The line code, element by element (R111). -/
theorem lineEncode_getLsbD (x : FrameBits) (k : Nat) (hk : k < 152) :
    (lineEncode x).getLsbD k = if k = 0 then x.getLsbD 0 else (x.getLsbD k ^^ x.getLsbD (k - 1)) := by
  rw [lineEncode, getLsbD_bitsOfFn]; simp [hk]

/-- The bits of CHDEC's first block (R120, R121). -/
theorem chDec_data_low (f : Frame) (i : Nat) (hi : i < 26) :
    (chDec f).data.getLsbD i = resBit (fun m => f.data.getLsbD m) 52 i := by
  unfold chDec
  simp only [chDecBlock]
  rw [BitVec.getLsbD_append, getLsbD_bitsOfFn, getLsbD_bitsOfFn]
  simp [hi, resLen1]

/-- The bits of CHDEC's second block (R120, R121). -/
theorem chDec_data_high (f : Frame) (i : Nat) (hi : i < 50) :
    (chDec f).data.getLsbD (26 + i) = resBit (fun m => f.data.getLsbD (52 + m)) 100 i := by
  unfold chDec
  simp only [chDecBlock]
  rw [BitVec.getLsbD_append, getLsbD_bitsOfFn, getLsbD_bitsOfFn]
  simp [hi, resLen1, resLen2]

/-- The flags of CHDEC's first block (R120, R121). -/
theorem chDec_err_low (f : Frame) (i : Nat) (hi : i < 26) :
    (chDec f).err.getLsbD i =
      (chkBit (fun m => f.data.getLsbD m) 52 i ^^ resBit (fun m => f.data.getLsbD m) 52 i) := by
  unfold chDec
  simp only [chDecBlock]
  rw [BitVec.getLsbD_append, getLsbD_bitsOfFn, getLsbD_bitsOfFn]
  simp [hi, resLen1]

/-- The flags of CHDEC's second block (R120, R121). -/
theorem chDec_err_high (f : Frame) (i : Nat) (hi : i < 50) :
    (chDec f).err.getLsbD (26 + i) =
      (chkBit (fun m => f.data.getLsbD (52 + m)) 100 i ^^ resBit (fun m => f.data.getLsbD (52 + m)) 100 i) := by
  unfold chDec
  simp only [chDecBlock]
  rw [BitVec.getLsbD_append, getLsbD_bitsOfFn, getLsbD_bitsOfFn]
  simp [hi, resLen1, resLen2]

/-- The encoder's symbols of the first block (R123). -/
theorem chEnc_low (b : DecodedBits) (m : Nat) (hm : m < 52) :
    (chEnc b).getLsbD m = chEncBit (fun k => b.getLsbD k) 26 m := by
  rw [chEnc, getLsbD_bitsOfFn]; simp [resLen1, hm]; omega

/-- The encoder's symbols of the second block (R123). -/
theorem chEnc_high (b : DecodedBits) (m : Nat) (hm : m < 100) :
    (chEnc b).getLsbD (52 + m) = chEncBit (fun k => b.getLsbD (26 + k)) 50 m := by
  rw [chEnc, getLsbD_bitsOfFn]; simp [resLen1, resLen2]; omega

/-- DEINTERLEAVE, element by element (R130). -/
theorem deinterleave_getLsbD (T : Fin 152 → Fin 152) (x : FrameBits) (j : Fin 152) :
    (deinterleave T x).getLsbD j = x.getLsbD (T j) := by
  rw [deinterleave, getLsbD_bitsOfFn]; simp

/-- A descending pass of DIFFDEC2 from position n, element by element (R140). -/
theorem diffDec2From_getLsbD (D : Nat → Nat) (hD : ∀ j, 1 ≤ j → j ≤ 151 → 1 ≤ D j) (n : Nat) (hn : n ≤ 151)
    (x : FrameBits) (k : Nat) (hk : k < 152) :
    (diffDec2From D n x).getLsbD k =
      if 1 ≤ k ∧ k ≤ n then (x.getLsbD k ^^ x.getLsbD (k - D k)) else x.getLsbD k := by
  induction n generalizing x with
  | zero => simp [diffDec2From]; intros; omega
  | succ n ih =>
    rw [diffDec2From, ih (by omega)]
    have h1 := hD (n + 1) (by omega) hn
    by_cases hkn : 1 ≤ k ∧ k ≤ n
    · have := hD k (by omega) (by omega)
      rw [if_pos hkn, if_pos (by omega), getLsbD_xorAt _ _ _ _ hk, getLsbD_xorAt _ _ _ _ (by omega),
        if_neg (by omega), if_neg (by omega)]
    · rw [if_neg hkn, getLsbD_xorAt _ _ _ _ hk]
      by_cases he : k = n + 1
      · subst he; simp
      · rw [if_neg he, if_neg (by omega)]

/-- An ascending precode pass to position n, element by element (R141). -/
theorem precodeTo_getLsbD (D : Nat → Nat) (hD : ∀ j, 1 ≤ j → j ≤ 151 → 1 ≤ D j) (n : Nat) (hn : n ≤ 151)
    (x : FrameBits) (k : Nat) (hk : k < 152) :
    (precodeTo D n x).getLsbD k =
      if 1 ≤ k ∧ k ≤ n then (x.getLsbD k ^^ (precodeTo D n x).getLsbD (k - D k)) else x.getLsbD k := by
  induction n generalizing k with
  | zero => simp [precodeTo]; intros; omega
  | succ n ih =>
    rw [precodeTo, getLsbD_xorAt _ _ _ _ hk, getLsbD_xorAt _ _ _ _ (by omega)]
    have h1 := hD (n + 1) (by omega) hn
    by_cases he : k = n + 1
    · subst he
      rw [if_pos rfl, if_pos (by omega), if_neg (by omega), ih (by omega) _ hk, if_neg (by omega)]
    · rw [if_neg he, ih (by omega) _ hk]
      by_cases hkn : 1 ≤ k ∧ k ≤ n
      · have := hD k (by omega) (by omega)
        rw [if_pos hkn, if_pos (by omega), if_neg (by omega)]
      · rw [if_neg hkn, if_neg (by omega)]

@[simp] theorem descramble_zero (x : FrameBits) : descramble 0 x = x := if_pos rfl

/-- DESCRAMBLE with a constant other than 0, element by element (R151). -/
theorem descramble_getLsbD {c : Fin 128} (hc : c ≠ 0) (x : FrameBits) (k : Nat) (hk : k < 152) :
    (descramble c x).getLsbD k = (x.getLsbD k ^^ scrSeq ((k + c.val) % 127)) := by
  rw [descramble, if_neg hc, getLsbD_bitsOfFn]; simp [hk]

@[simp] theorem chDec_no (f : Frame) : (chDec f).no = f.no := rfl

@[simp] theorem trialDecode_no (P : Config.Params) (f : Frame) (c : Fin 128) : (trialDecode P f c).no = f.no := rfl

end Sys2Proof.Machine
end

