-- ==== Sys2Proof/Laws/Frames.lean ====
section
/-! SUPPORT. The detector and the frame processors, each by what it answers. -/

namespace Sys2Proof.Machine

/-- A left-to-right scan keeps the first of the largest values (R163). -/
theorem scan_spec (v : Fin 128 → Nat) (l : List (Fin 128)) (hl : l.Pairwise (· < ·)) (b0 : Fin 128)
    (hb : ∀ c ∈ l, b0 < c ∨ b0 = c) :
    let b := l.foldl (fun best c => if v c > v best then c else best) b0
    v b0 ≤ v b ∧ (∀ c ∈ l, v c ≤ v b) ∧ (b = b0 ∨ v b0 < v b) ∧
      (∀ c ∈ l, c < b → v c < v b) ∧ (b0 < b ∨ b0 = b) := by
  induction l generalizing b0 with
  | nil => simp
  | cons a l ih =>
    have hp := List.pairwise_cons.1 hl
    simp only [List.foldl_cons]
    by_cases h : v a > v b0
    · rw [if_pos h]
      obtain ⟨h1, h2, h3, h4, h5⟩ := ih hp.2 a fun c hc => Or.inl (hp.1 c hc)
      refine ⟨by omega, ?_, Or.inr (by omega), ?_, ?_⟩
      · intro c hc
        rcases List.mem_cons.1 hc with rfl | hc
        · exact h1
        · exact h2 c hc
      · intro c hc hlt
        rcases List.mem_cons.1 hc with rfl | hc
        · rcases h3 with h3 | h3
          · rw [h3] at hlt; exact absurd hlt (lt_irrefl _)
          · exact h3
        · exact h4 c hc hlt
      · have := hb a (by simp)
        rcases this with hba | hba
        · exact Or.inl (by rcases h5 with h5 | h5 <;> omega)
        · subst hba; omega
    · rw [if_neg h]
      obtain ⟨h1, h2, h3, h4, h5⟩ := ih hp.2 b0 fun c hc => hb c (List.mem_cons_of_mem _ hc)
      refine ⟨h1, ?_, h3, ?_, h5⟩
      · intro c hc
        rcases List.mem_cons.1 hc with rfl | hc
        · omega
        · exact h2 c hc
      · intro c hc hlt
        rcases List.mem_cons.1 hc with rfl | hc
        · rcases h3 with h3 | h3
          · rw [h3] at hlt
            rcases hb c (by simp) with h | h
            · omega
            · rw [h] at hlt; exact absurd hlt (lt_irrefl _)
          · omega
        · exact h4 c hc hlt

/-- `best` is the lowest index of the largest score (R163). -/
theorem bestCandidate_spec (stat : Vector Nat 128) :
    (∀ j : Fin 128, stat[j] ≤ stat[bestCandidate stat]) ∧
      (∀ j : Fin 128, j < bestCandidate stat → stat[j] < stat[bestCandidate stat]) := by
  obtain ⟨_, h2, _, h4, _⟩ := scan_spec (fun c => stat[c]) (List.finRange 128) (List.pairwise_lt_finRange 128) 0
    fun c _ => by have := Fin.zero_le c; omega
  exact ⟨fun j => h2 j (List.mem_finRange j), fun j hj => h4 j (List.mem_finRange j) hj⟩

/-- A lowest index of the largest score is `best`. -/
theorem bestCandidate_eq {stat : Vector Nat 128} {b : Fin 128} (h1 : ∀ j : Fin 128, stat[j] ≤ stat[b])
    (h2 : ∀ j : Fin 128, j < b → stat[j] < stat[b]) : bestCandidate stat = b := by
  obtain ⟨g1, g2⟩ := bestCandidate_spec stat
  rcases lt_trichotomy (bestCandidate stat) b with h | h | h
  · have := h2 _ h; have := g1 b; omega
  · exact h
  · have := g2 _ h; have := h1 (bestCandidate stat); omega

theorem foldMax_le (stat : Vector Nat 128) (best : Fin 128) (l : List (Fin 128)) (m0 x : Nat) :
    l.foldl (fun m c => if c = best then m else max m stat[c]) m0 ≤ x ↔
      m0 ≤ x ∧ ∀ c ∈ l, c ≠ best → stat[c] ≤ x := by
  induction l generalizing m0 with
  | nil => simp
  | cons a l ih =>
    rw [List.foldl_cons, ih]
    by_cases h : a = best
    · simp [h]
    · simp only [h, if_false, List.mem_cons, forall_eq_or_imp, ne_eq, not_false_eq_true, true_implies]
      constructor
      · rintro ⟨h1, h2⟩; exact ⟨by omega, by omega, h2⟩
      · rintro ⟨h1, h2, h3⟩; exact ⟨by omega, h3⟩

/-- `second` is at most x exactly when every other score is (R163). -/
theorem secondScore_le (stat : Vector Nat 128) (best : Fin 128) (x : Nat) :
    secondScore stat best ≤ x ↔ ∀ j : Fin 128, j ≠ best → stat[j] ≤ x := by
  unfold secondScore
  rw [foldMax_le]
  exact ⟨fun h j hj => h.2 j (List.mem_finRange j) hj, fun h => ⟨Nat.zero_le _, fun j _ hj => h j hj⟩⟩

/-- The commit condition, against every other score (R164). -/
theorem commits_iff (stat : Vector Nat 128) (n : Nat) :
    commits stat n = true ↔ ∀ j : Fin 128, j ≠ bestCandidate stat → stat[j] + n < stat[bestCandidate stat] := by
  rw [commits, decide_eq_true_iff]
  have h := secondScore_le stat (bestCandidate stat) (stat[bestCandidate stat] - n - 1)
  by_cases hs : n < stat[bestCandidate stat]
  · constructor
    · intro g j hj
      have := h.1 (by omega) j hj
      omega
    · intro g
      have := h.2 fun j hj => by have := g j hj; omega
      omega
  · constructor
    · intro g; omega
    · intro g
      by_cases h0 : (0 : Fin 128) = bestCandidate stat
      · have := g 1 (by rw [← h0]; decide); omega
      · have := g 0 h0; omega

/-- One score after a run (R162). -/
theorem scoresAfter_getElem (P : Config.Params) (f : Frame) (stat : Vector Nat 128) (j : Fin 128) :
    (scoresAfter P f stat)[j] = if trialPasses P f j then stat[j] + 1 else stat[j] - 2 := by
  simp [scoresAfter, scoreAfter, scrPassReward, scrFailPenalty]

/-- The trial's success, in its two conditions (R162). -/
theorem trialPasses_iff (P : Config.Params) (f : Frame) (j : Fin 128) :
    trialPasses P f j = true ↔ errorCount (trialDecode P f j) = 0 ∧ P.crcCheck (trialDecode P f j).data = true := by
  simp [trialPasses]

/-- SCRDETECT without a commit (R161, R166). -/
theorem scrDetect_of_not_commits {P : Config.Params} {c : Channel} {f : Frame} {es : List Event}
    (h : commits (scoresAfter P f c.scrStat) c.scrConfidence = false) :
    scrDetect P c f es =
      ({ c with scrStat := scoresAfter P f c.scrStat, scrGuess := bestCandidate (scoresAfter P f c.scrStat) }, es) := by
  simp [scrDetect, h]

/-- SCRDETECT with a commit (R161, R165, R166). -/
theorem scrDetect_of_commits {P : Config.Params} {c : Channel} {f : Frame} {es : List Event}
    (h : commits (scoresAfter P f c.scrStat) c.scrConfidence = true) :
    scrDetect P c f es =
      ({ c with scrStat := zeroScores, scrGuess := bestCandidate (scoresAfter P f c.scrStat),
                scr := .known (bestCandidate (scoresAfter P f c.scrStat)) },
        emitDiag P es (.scrLocked (bestCandidate (scoresAfter P f c.scrStat)))) := by
  simp [scrDetect, h, Channel.writeScr]

/-- SCRDETECT touches the three fields of the detector only, and emits at most a diagnostic (R161). -/
theorem scrDetect_frame (P : Config.Params) (c : Channel) (f : Frame) (es : List Event) :
    ∃ scr guess stat, (scrDetect P c f es).1 = { c with scr := scr, scrGuess := guess, scrStat := stat } ∧
      (scr ≠ c.scr → stat = zeroScores) ∧ mandatory (scrDetect P c f es).2 = mandatory es := by
  cases h : commits (scoresAfter P f c.scrStat) c.scrConfidence
  · rw [scrDetect_of_not_commits h]
    exact ⟨c.scr, _, _, rfl, fun h => absurd rfl h, by simp only⟩
  · rw [scrDetect_of_commits h]
    exact ⟨_, _, _, rfl, fun _ => by simp only, by simp only [mandatory_emitDiag]⟩

/-- CCH_PROC on a frame whose gates all pass (R171, R174). -/
theorem cchProc_of_pass {P : Config.Params} {c : Channel} {f : Frame} (es : List Event)
    (h : firstFailedGate P (trialDecode P f (effectiveScr c)) = none) :
    cchProc P c f es =
      (.dispatched,
        emitDiag P (emit es (.reasmDispatch (trialDecode P f (effectiveScr c)).data
            (decodedIndex P (trialDecode P f (effectiveScr c)))))
          (.frameOk f.no (decodedIndex P (trialDecode P f (effectiveScr c)))
            ((trialDecode P f (effectiveScr c)).data.getLsbD P.st0Pos)
            ((trialDecode P f (effectiveScr c)).data.getLsbD P.st1Pos) (effectiveScr c))) := by
  unfold cchProc
  dsimp only
  rw [h]
  dsimp only
  rw [trialDecode_no]

/-- CCH_PROC on a frame that a gate drops (R171, R173). -/
theorem cchProc_of_fail {P : Config.Params} {c : Channel} {f : Frame} {k : DropKind} (es : List Event)
    (h : firstFailedGate P (trialDecode P f (effectiveScr c)) = some k) :
    cchProc P c f es =
      (.dropped k, emitDiag P (emit es .reasmReset) (.frameErr f.no k (effectiveScr c))) := by
  unfold cchProc
  dsimp only
  rw [h]
  dsimp only
  rw [trialDecode_no]

/-- PROC_FRAME on a configuration out of scope does nothing (R170, R172). -/
theorem procFrame_unsupported {P : Config.Params} {c : Channel} {f : Frame} {es : List Event}
    (h : c.channelKind = .traffic ∨ c.band = .vhf) : procFrame P c f es = (c, .unsupported, es) := by
  unfold procFrame tchProc
  rcases h with h | h
  · rw [h]
  · rw [h]; cases c.channelKind <;> rfl

/-- PROC_FRAME with a known constant is CCH_PROC (R170). -/
theorem procFrame_known {P : Config.Params} {c : Channel} {f : Frame} {es : List Event} {v : Fin 128}
    (hk : c.channelKind = .control) (hb : c.band = .uhf) (hs : c.scr = .known v) :
    procFrame P c f es = (c, cchProc P c f es) := by
  simp only [procFrame, hk, hb, hs]

/-- PROC_FRAME in Auto is SCRDETECT, then CCH_PROC (R170). -/
theorem procFrame_auto {P : Config.Params} {c : Channel} {f : Frame} {es : List Event}
    (hk : c.channelKind = .control) (hb : c.band = .uhf) (hs : c.scr = .auto) :
    procFrame P c f es =
      ((scrDetect P c f es).1, cchProc P (scrDetect P c f es).1 f (scrDetect P c f es).2) := by
  simp only [procFrame, hk, hb, hs]

/-- The first of a pair. Stated for variables, so that the kernel never compares the seconds, which are whole decodes. -/
theorem pair_fst {α β : Type} (a : α) (b : β) : (a, b).1 = a := rfl

/-- The instance PROC_FRAME leaves in Auto (R170). -/
theorem procFrame_auto_fst {P : Config.Params} {c : Channel} {f : Frame} {es : List Event}
    (hk : c.channelKind = .control) (hb : c.band = .uhf) (hs : c.scr = .auto) :
    (procFrame P c f es).1 = (scrDetect P c f es).1 :=
  (congrArg Prod.fst (procFrame_auto hk hb hs)).trans (pair_fst _ _)

/-- The three ways of PROC_FRAME (R170). -/
theorem procFrame_cases (c : Channel) :
    (c.channelKind = .traffic ∨ c.band = .vhf) ∨
    (c.channelKind = .control ∧ c.band = .uhf ∧ ∃ v, c.scr = .known v) ∨
    (c.channelKind = .control ∧ c.band = .uhf ∧ c.scr = .auto) := by
  cases c.channelKind <;> cases c.band <;> cases c.scr <;> simp

/-- PROC_FRAME touches the three fields of the detector only, and those only in Auto (R170). -/
theorem procFrame_frame (P : Config.Params) (c : Channel) (f : Frame) (es : List Event) :
    ∃ scr guess stat, (procFrame P c f es).1 = { c with scr := scr, scrGuess := guess, scrStat := stat } ∧
      (c.scr ≠ .auto → scr = c.scr ∧ guess = c.scrGuess ∧ stat = c.scrStat) ∧
      (scr ≠ c.scr → stat = zeroScores) := by
  rcases procFrame_cases c with h | ⟨hk, hb, v, hs⟩ | ⟨hk, hb, hs⟩
  · rw [procFrame_unsupported h]
    exact ⟨c.scr, c.scrGuess, c.scrStat, rfl, fun _ => ⟨rfl, rfl, rfl⟩, fun h => absurd rfl h⟩
  · rw [procFrame_known hk hb hs]
    generalize cchProc P c f es = d
    exact ⟨c.scr, c.scrGuess, c.scrStat, rfl, fun _ => ⟨rfl, rfl, rfl⟩, fun h => absurd rfl h⟩
  · obtain ⟨a, b, e, h1, h2, _⟩ := scrDetect_frame P c f es
    exact ⟨a, b, e, (procFrame_auto_fst hk hb hs).trans h1, fun h => absurd hs h, h2⟩

end Sys2Proof.Machine
end

