-- ==== Sys2Proof/Laws/Internal.lean ====
section
/-! SUPPORT. The internal operations presented by the block: `exec` as an equation over the shared operations. -/

namespace Sys2Proof.Machine

variable {s : State} {c : Channel} {f : Frame}

theorem exec_chDec (hb : s.issuer = .block) (hc : s.inst = some c) (hf : s.fr = some f) :
    exec (.chDec 0) s = .next { s with
      df := some (chDec f), result := some (.decoded (chDec f) (errorCount (chDec f))), events := [] } :=
  (asInternal_block hb hc _).trans (withFrame_some hf _)

theorem exec_diffDec2 (hb : s.issuer = .block) (hc : s.inst = some c) (hf : s.fr = some f) :
    exec (.diffDec2 0) s = .next { s with
      fr := some { data := diffDec2 Config.params.dist f.data, no := f.no }, result := none, events := [] } :=
  (asInternal_block hb hc _).trans (withFrame_some hf _)

theorem exec_descramble (hb : s.issuer = .block) (hc : s.inst = some c) (hf : s.fr = some f) :
    exec (.descramble 0) s = .next { s with
      fr := some { data := descramble s.opC f.data, no := f.no }, result := none, events := [] } :=
  (asInternal_block hb hc _).trans (withFrame_some hf _)

theorem exec_deinterleave (hb : s.issuer = .block) (hc : s.inst = some c) (hu : c.band = .uhf)
    (hf : s.fr = some f) :
    exec (.deinterleave 0) s = .next { s with
      fr := some { data := deinterleave Config.params.ilvUhfData f.data, no := f.no },
      result := none, events := [] } := by
  refine (asInternal_block hb hc _).trans ((withFrame_some hf _).trans ?_)
  simp only [hu]
  rfl

theorem exec_scrDetect (hb : s.issuer = .block) (hc : s.inst = some c) (hu : c.band = .uhf) (hf : s.fr = some f) :
    exec (.scrDetect 0) s = .next { s with
      inst := some (scrDetect Config.params c f []).1, result := none,
      events := (scrDetect Config.params c f []).2 } := by
  refine (asInternal_block hb hc _).trans ((withFrame_some hf _).trans ?_)
  simp only [hu]
  rfl

theorem exec_cchProc (hb : s.issuer = .block) (hc : s.inst = some c) (hu : c.band = .uhf) (hf : s.fr = some f) :
    exec (.cchProc 0) s = .next { s with
      df := some (trialDecode Config.params f (effectiveScr c)),
      result := some (.frame (cchProc Config.params c f []).1), events := (cchProc Config.params c f []).2 } := by
  refine (asInternal_block hb hc _).trans ((withFrame_some hf _).trans ?_)
  simp only [hu]
  rfl

theorem exec_procFrame (hb : s.issuer = .block) (hc : s.inst = some c) (hf : s.fr = some f) :
    exec (.procFrame 0) s = .next { s with
      inst := some (procFrame Config.params c f []).1, fr := none, df := none,
      result := some (.frame (procFrame Config.params c f []).2.1), events := (procFrame Config.params c f []).2.2 } :=
  (asInternal_block hb hc _).trans (withFrame_some hf _)

end Sys2Proof.Machine
end

