-- ==== Sys2Proof/Laws/PerInstr.lean ====
section
/-! SUPPORT. Per operation: the `op` field of its word is the one R77 gives it, and bit 15 marks the internal ones
(R76). -/

namespace Sys2Proof.Laws.OpField

/-- The word of i has the `op` of i, and its bit 15 says whether i is internal. -/
def Statement (i : Instr) : Prop := opField (encode i) = i.op ∧ i.op.getLsbD 4 = i.isInternal

theorem create (r : BitVec 7) (k b : BitVec 2) : Statement (.create r k b) := ⟨opField_opWord _ _, by simp [Instr.op, Instr.isInternal]⟩
theorem feed (n : Nat) : Statement (.feed n) := ⟨opField_opWord _ _, by simp [Instr.op, Instr.isInternal]⟩
theorem process (a : Arg) : Statement (.process a) := ⟨opField_opWord _ _, by simp [Instr.op, Instr.isInternal]⟩
theorem getScr (a : Arg) : Statement (.getScr a) := ⟨opField_opWord _ _, by simp [Instr.op, Instr.isInternal]⟩
theorem setScr (r : BitVec 3) (a : Bool) (v : Nat) : Statement (.setScr r a v) := ⟨opField_opWord _ _, by simp [Instr.op, Instr.isInternal]⟩
theorem getScrConfidence (a : Arg) : Statement (.getScrConfidence a) := ⟨opField_opWord _ _, by simp [Instr.op, Instr.isInternal]⟩
theorem setScrConfidence (n : Nat) : Statement (.setScrConfidence n) := ⟨opField_opWord _ _, by simp [Instr.op, Instr.isInternal]⟩
theorem markerCmp (a : Arg) : Statement (.markerCmp a) := ⟨opField_opWord _ _, by simp [Instr.op, Instr.isInternal]⟩
theorem syncAcq (a : Arg) : Statement (.syncAcq a) := ⟨opField_opWord _ _, by simp [Instr.op, Instr.isInternal]⟩
theorem extract (a : Arg) : Statement (.extract a) := ⟨opField_opWord _ _, by simp [Instr.op, Instr.isInternal]⟩
theorem diffDec1 (a : Arg) : Statement (.diffDec1 a) := ⟨opField_opWord _ _, by simp [Instr.op, Instr.isInternal]⟩
theorem chDec (a : Arg) : Statement (.chDec a) := ⟨opField_opWord _ _, by simp [Instr.op, Instr.isInternal]⟩
theorem deinterleave (a : Arg) : Statement (.deinterleave a) := ⟨opField_opWord _ _, by simp [Instr.op, Instr.isInternal]⟩
theorem diffDec2 (a : Arg) : Statement (.diffDec2 a) := ⟨opField_opWord _ _, by simp [Instr.op, Instr.isInternal]⟩
theorem descramble (a : Arg) : Statement (.descramble a) := ⟨opField_opWord _ _, by simp [Instr.op, Instr.isInternal]⟩
theorem scrDetect (a : Arg) : Statement (.scrDetect a) := ⟨opField_opWord _ _, by simp [Instr.op, Instr.isInternal]⟩
theorem procFrame (a : Arg) : Statement (.procFrame a) := ⟨opField_opWord _ _, by simp [Instr.op, Instr.isInternal]⟩
theorem cchProc (a : Arg) : Statement (.cchProc a) := ⟨opField_opWord _ _, by simp [Instr.op, Instr.isInternal]⟩
theorem tchProc (a : Arg) : Statement (.tchProc a) := ⟨opField_opWord _ _, by simp [Instr.op, Instr.isInternal]⟩

end Sys2Proof.Laws.OpField
end

