-- ==== Sys2Proof/Laws/Sync.lean ====
section
/-! SUPPORT. The synchronizer and the extraction, each by what it answers. -/

namespace Sys2Proof.Machine

/-- Seven symbols and the marker, counted position by position. -/
theorem mismatches_cons7 (a b c d e f g : Symbol) :
    mismatches [a, b, c, d, e, f, g] =
      (a != true).toNat + ((b != false).toNat + ((c != true).toNat + ((d != false).toNat +
        ((e != false).toNat + ((f != true).toNat + ((g != true).toNat + 0)))))) := rfl

/-- Inside the buffer MARKER_CMP is the sum of R100. -/
theorem markerCmp_of_lt {b : List Symbol} {p : Nat} (h : p + 7 < b.length) : markerCmp b p = .ok (markerErrors b p) := by
  have hw : bufRead b (p + 1) markerLen = .ok ((b.drop (p + 1)).take 7) := bufRead_of_le (by simp only [markerLen]; omega)
  have h1 : (b.drop (p + 1)).take 7 = [b[p + 1], b[p + 2], b[p + 3], b[p + 4], b[p + 5], b[p + 6], b[p + 7]] := by
    apply List.ext_getElem
    · simp; omega
    · intro i hi _
      simp only [List.length_take, List.length_drop] at hi
      have : i < 7 := by omega
      simp only [List.getElem_take, List.getElem_drop]
      interval_cases i <;> rfl
  simp only [markerCmp, hw, h1, mismatches_cons7, markerErrors]
  have g : ∀ i, (hi : i < 8) → b[p + i]? = some (b[p + i]'(by omega)) := fun i hi => List.getElem?_eq_getElem (by omega)
  simp only [List.map_cons, List.map_nil, List.sum_cons, List.sum_nil, g 1 (by omega), g 2 (by omega), g 3 (by omega),
    g 4 (by omega), g 5 (by omega), g 6 (by omega), g 7 (by omega), Option.some.injEq]
  congr 1
  have bt : ∀ x : Bool, (x != true).toNat = if x = true then 0 else 1 := by decide
  have bf : ∀ x : Bool, (x != false).toNat = if x = false then 0 else 1 := by decide
  simp only [bt, bf]

/-- Outside it, a fault. -/
theorem markerCmp_of_le {b : List Symbol} {p : Nat} (h : b.length ≤ p + 7) :
    markerCmp b p = .error .readOutsideBuffer := by
  simp [markerCmp, bufRead_of_lt (b := b) (a := p + 1) (n := markerLen) (by decide) (by simp only [markerLen]; omega)]

theorem markerErrors_le (b : List Symbol) (p : Nat) : markerErrors b p ≤ 7 := by
  simp only [markerErrors, List.map_cons, List.map_nil, List.sum_cons, List.sum_nil]
  have : ∀ (q : Prop) [Decidable q], (if q then 0 else 1 : Nat) ≤ 1 := fun q _ => by split <;> omega
  have h1 := this (b[p + 1]? = some true); have h2 := this (b[p + 2]? = some false)
  have h3 := this (b[p + 3]? = some true); have h4 := this (b[p + 4]? = some false)
  have h5 := this (b[p + 5]? = some false); have h6 := this (b[p + 6]? = some true)
  have h7 := this (b[p + 7]? = some true)
  omega

/-- The scan over n offsets that all leave both markers inside the buffer: the first accepted one, or none. -/
theorem syncScan_spec (b : List Symbol) (n o : Nat) (h : o + n + 167 ≤ b.length) :
    (∃ k, k < n ∧ pairErrors b (o + k) ≤ 1 ∧ (∀ j, j < k → 1 < pairErrors b (o + j)) ∧
      syncScan b n o = .ok (some (o + k))) ∨
    ((∀ k, k < n → 1 < pairErrors b (o + k)) ∧ syncScan b n o = .ok none) := by
  induction n generalizing o with
  | zero => right; exact ⟨by simp, rfl⟩
  | succ n ih =>
    have e1 := markerCmp_of_lt (b := b) (p := o) (by omega)
    have e2 := markerCmp_of_lt (b := b) (p := o + frameLen) (by simp only [frameLen]; omega)
    by_cases ha : pairErrors b o ≤ 1
    · left
      refine ⟨0, by omega, by simpa using ha, by simp, ?_⟩
      simp only [pairErrors] at ha
      simp [syncScan, e1, e2, withinBudget, ha]
    · have hs : syncScan b (n + 1) o = syncScan b n (o + 1) := by
        simp only [pairErrors] at ha
        simp [syncScan, e1, e2, withinBudget, ha]
      rcases ih (o + 1) (by omega) with ⟨k, hk, hb, hl, hr⟩ | ⟨hl, hr⟩
      · left
        refine ⟨k + 1, by omega, by rw [show o + (k + 1) = o + 1 + k by omega]; exact hb, ?_, ?_⟩
        · intro j hj
          cases j with
          | zero => simp; omega
          | succ j => rw [show o + (j + 1) = o + 1 + j by omega]; exact hl j (by omega)
        · rw [hs, hr]; congr 2; omega
      · right
        refine ⟨?_, by rw [hs, hr]⟩
        intro k hk
        cases k with
        | zero => simp; omega
        | succ k => rw [show o + (k + 1) = o + 1 + k by omega]; exact hl k (by omega)

theorem syncOffsets_eq (b : List Symbol) : syncOffsets b = b.length - 167 := by
  unfold syncOffsets bufLen; rfl

/-- SYNC_ACQ, inside its scan bound (R101), never faults: it finds the earliest acceptable offset, or none. -/
theorem syncAcq_spec (c : Channel) :
    (∃ o, o + 168 ≤ c.buffer.length ∧ pairErrors c.buffer o ≤ 1 ∧ (∀ j, j < o → 1 < pairErrors c.buffer j) ∧
      syncAcq c = .ok ({ c with buffer := c.buffer.drop o, lastSyncErr := 0, totalSyncErr := 0 }, .found)) ∨
    ((∀ o, o + 168 ≤ c.buffer.length → 1 < pairErrors c.buffer o) ∧
      syncAcq c = .ok ({ c with buffer := c.buffer.drop (c.buffer.length - 167) }, .notFound)) := by
  have hn := syncOffsets_eq c.buffer
  by_cases hlen : c.buffer.length ≤ 167
  · right
    refine ⟨by intro o ho; omega, ?_⟩
    have h0 : c.buffer.length - 167 = 0 := by omega
    unfold syncAcq; rw [hn, h0]; simp only [syncScan, bufDropFront]
  · rcases syncScan_spec c.buffer (c.buffer.length - 167) 0 (by omega) with ⟨k, hk, hb, hl, hr⟩ | ⟨hl, hr⟩
    · left
      simp only [Nat.zero_add] at hb hl hr
      exact ⟨k, by omega, hb, hl, by unfold syncAcq; rw [hn, hr]; simp only [bufDropFront]⟩
    · right
      simp only [Nat.zero_add] at hl
      exact ⟨fun o ho => hl o (by omega), by unfold syncAcq; rw [hn, hr]; simp only [bufDropFront]⟩

/-- The Frame EXTRACT makes of the unit at the buffer front. -/
def frontFrame (c : Channel) : Frame :=
  { data := diffDec1 (bitsOfList 152 ((c.buffer.drop 8).take 152)), no := c.frameNo }

theorem takeFrame_of_le {c : Channel} (h : 160 ≤ c.buffer.length) (e t : Nat) :
    takeFrame c e t =
      .ok ({ c with totalSyncErr := t, lastSyncErr := e, buffer := c.buffer.drop 160 }, .frame (frontFrame c)) := by
  have hw : bufRead c.buffer frameHdrLen frameDataLen = .ok ((c.buffer.drop 8).take 152) :=
    bufRead_of_le (by simp only [frameHdrLen, frameDataLen]; omega)
  simp [takeFrame, hw, frontFrame, bufDropFront]

/-- EXTRACT never faults: no frame yet, a good frame, a tolerated bad frame, or synchronization lost (R110). -/
theorem extract_spec (c : Channel) :
    (c.buffer.length < 160 ∧ extract c = .ok (c, .noFrameYet)) ∨
    (160 ≤ c.buffer.length ∧ markerErrors c.buffer 0 + c.lastSyncErr ≤ 1 ∧
      extract c = .ok ({ c with totalSyncErr := 0, lastSyncErr := markerErrors c.buffer 0, buffer := c.buffer.drop 160 },
        .frame (frontFrame c))) ∨
    (160 ≤ c.buffer.length ∧ 1 < markerErrors c.buffer 0 + c.lastSyncErr ∧ 1 + 2 * c.totalSyncErr < 160 ∧
      extract c = .ok ({ c with totalSyncErr := 1 + 2 * c.totalSyncErr, lastSyncErr := markerErrors c.buffer 0,
                                buffer := c.buffer.drop 160 }, .frame (frontFrame c))) ∨
    (160 ≤ c.buffer.length ∧ 1 < markerErrors c.buffer 0 + c.lastSyncErr ∧ 160 ≤ 1 + 2 * c.totalSyncErr ∧
      extract c = .ok ({ c with totalSyncErr := 1 + 2 * c.totalSyncErr }, .syncLost)) := by
  by_cases hlen : c.buffer.length < 160
  · left; exact ⟨hlen, by simp [extract, bufLen, hlen]⟩
  · right
    have hl : 160 ≤ c.buffer.length := by omega
    have e := markerCmp_of_lt (b := c.buffer) (p := 0) (by omega)
    by_cases hb : markerErrors c.buffer 0 + c.lastSyncErr ≤ 1
    · left; exact ⟨hl, hb, by simp [extract, bufLen, hlen, e, withinBudget, hb, takeFrame_of_le hl]⟩
    · right
      by_cases ht : 160 ≤ 1 + 2 * c.totalSyncErr
      · right; exact ⟨hl, by omega, ht, by simp [extract, bufLen, hlen, e, withinBudget, hb, isLost, escalate, ht]⟩
      · left
        exact ⟨hl, by omega, by omega,
          by simp [extract, bufLen, hlen, e, withinBudget, hb, isLost, escalate, ht, takeFrame_of_le hl]⟩

end Sys2Proof.Machine
end

