-- ==== Sys2Proof/Laws/Process.lean ====
section
/-! SUPPORT. One turn of the extraction loop of PROCESS, by what it answers. -/

namespace Sys2Proof.Machine

/-- The instance after EXTRACT took the unit at the buffer front with the two counters t and e (R110). -/
def Channel.afterUnit (c : Channel) (t e : Nat) : Channel :=
  { c with totalSyncErr := t, lastSyncErr := e, buffer := c.buffer.drop 160 }

@[simp] theorem Channel.afterUnit_buffer (c : Channel) (t e : Nat) : (c.afterUnit t e).buffer = c.buffer.drop 160 := rfl

/-- One turn that processes a frame: PROC_FRAME on the extracted unit touches the detector's fields only, and the loop
goes on (R180, R187). -/
theorem drain_of_frame (P : Config.Params) (n : Nat) (c : Channel) (st : Status) (es : List Event) (t e : Nat)
    (h : extract c = .ok (c.afterUnit t e, .frame (frontFrame c))) :
    ∃ scr guess stat,
      (procFrame P (c.afterUnit t e) (frontFrame c) es).1 =
        { c.afterUnit t e with scr := scr, scrGuess := guess, scrStat := stat } ∧
      (c.scr ≠ .auto → scr = c.scr ∧ guess = c.scrGuess ∧ stat = c.scrStat) ∧
      (scr ≠ c.scr → stat = zeroScores) ∧
      drain P (n + 1) c st es =
        drain P n
          { c.afterUnit t e with scr := scr, scrGuess := guess, scrStat := stat,
                                 frameNo := nextFrameNo c.frameNo c.frameNo }
          (nextStatus st (procFrame P (c.afterUnit t e) (frontFrame c) es).2.1)
          (procFrame P (c.afterUnit t e) (frontFrame c) es).2.2 := by
  obtain ⟨a, b, d, h1, h2, h3⟩ := procFrame_frame P (c.afterUnit t e) (frontFrame c) es
  refine ⟨a, b, d, h1, h2, h3, ?_⟩
  rw [drain, h]
  have hno : (frontFrame c).no = c.frameNo := rfl
  have hfn : (c.afterUnit t e).frameNo = c.frameNo := rfl
  generalize frontFrame c = f at *
  dsimp only
  generalize procFrame P (c.afterUnit t e) f es = r at *
  rw [h1, hno, hfn]

/-- One turn of the loop: nothing to extract, synchronization lost, or a frame (R110, R180). -/
theorem drain_step (P : Config.Params) (n : Nat) (c : Channel) (st : Status) (es : List Event) :
    (c.buffer.length < 160 ∧ extract c = .ok (c, .noFrameYet) ∧ drain P (n + 1) c st es = .ok (c, st, es)) ∨
    (160 ≤ c.buffer.length ∧ 1 < markerErrors c.buffer 0 + c.lastSyncErr ∧ 160 ≤ 1 + 2 * c.totalSyncErr ∧
      extract c = .ok ({ c with totalSyncErr := 1 + 2 * c.totalSyncErr }, .syncLost) ∧
      drain P (n + 1) c st es =
        .ok ({ c with totalSyncErr := 1 + 2 * c.totalSyncErr, syncState := .notSynced }, st,
          emitDiag P es .syncLost)) ∨
    (160 ≤ c.buffer.length ∧ ∃ t scr guess stat,
      (1 < markerErrors c.buffer 0 + c.lastSyncErr → t = 1 + 2 * c.totalSyncErr ∧ 1 + 2 * c.totalSyncErr < 160) ∧
      (markerErrors c.buffer 0 + c.lastSyncErr ≤ 1 → t = 0) ∧
      extract c = .ok (c.afterUnit t (markerErrors c.buffer 0), .frame (frontFrame c)) ∧
      (procFrame P (c.afterUnit t (markerErrors c.buffer 0)) (frontFrame c) es).1 =
        { c.afterUnit t (markerErrors c.buffer 0) with scr := scr, scrGuess := guess, scrStat := stat } ∧
      (c.scr ≠ .auto → scr = c.scr ∧ guess = c.scrGuess ∧ stat = c.scrStat) ∧
      (scr ≠ c.scr → stat = zeroScores) ∧
      drain P (n + 1) c st es =
        drain P n
          { c.afterUnit t (markerErrors c.buffer 0) with
            scr := scr, scrGuess := guess, scrStat := stat, frameNo := nextFrameNo c.frameNo c.frameNo }
          (nextStatus st (procFrame P (c.afterUnit t (markerErrors c.buffer 0)) (frontFrame c) es).2.1)
          (procFrame P (c.afterUnit t (markerErrors c.buffer 0)) (frontFrame c) es).2.2) := by
  rcases extract_spec c with ⟨h1, h2⟩ | ⟨h1, h2, h3⟩ | ⟨h1, h2, h2', h3⟩ | ⟨h1, h2, h2', h3⟩
  · left; exact ⟨h1, h2, by rw [drain, h2]⟩
  · right; right
    obtain ⟨a, b, d, g1, g2, g3, g4⟩ := drain_of_frame P n c st es _ _ h3
    exact ⟨h1, _, a, b, d, fun h => by omega, fun _ => rfl, h3, g1, g2, g3, g4⟩
  · right; right
    obtain ⟨a, b, d, g1, g2, g3, g4⟩ := drain_of_frame P n c st es _ _ h3
    exact ⟨h1, _, a, b, d, fun h => ⟨rfl, h2'⟩, fun _ => by omega, h3, g1, g2, g3, g4⟩
  · right; left
    exact ⟨h1, h2, h2', h3, by rw [drain, h3]⟩

end Sys2Proof.Machine
end

