-- ==== Sys2Proof/Tests/Slice0.lean ====
section
/-! SUPPORT. Small tests, each of one operation, and a witness for the hypotheses of each statement that has some.
Expected values stand in the spec's file 95 (named V-...), in the operation map of R77, or are counted by hand from the
rule. Numerals for bit strings are hexadecimal with the spec's first symbol as bit 0. -/

namespace Sys2Proof.Tests

open Sys2Proof Sys2Proof.Machine

/-! Well-formed operations: each check refuses an ill-formed one -/

theorem test_fits_feed : Instr.fits (.feed 2048) = false := by decide
theorem test_fits_setScr : Instr.fits (.setScr 0 false 128) = false := by decide
theorem test_fits_setScrConfidence : Instr.fits (.setScrConfidence 2048) = false := by decide
theorem test_layout_create_reserved : Instr.layout (.create 1 0 1) = false := by decide
theorem test_layout_create_kind : Instr.layout (.create 0 2 1) = false := by decide
theorem test_layout_create_band : Instr.layout (.create 0 0 3) = false := by decide
theorem test_layout_setScr_reserved : Instr.layout (.setScr 4 false 5) = false := by decide
theorem test_layout_setScr_auto_value : Instr.layout (.setScr 0 true 5) = false := by decide
theorem test_layout_process : Instr.layout (.process 1) = false := by decide
theorem test_layout_getScr : Instr.layout (.getScr 1) = false := by decide
theorem test_layout_getScrConfidence : Instr.layout (.getScrConfidence 1) = false := by decide
theorem test_layout_markerCmp : Instr.layout (.markerCmp 1) = false := by decide
theorem test_layout_syncAcq : Instr.layout (.syncAcq 1) = false := by decide
theorem test_layout_extract : Instr.layout (.extract 1) = false := by decide
theorem test_layout_diffDec1 : Instr.layout (.diffDec1 1) = false := by decide
theorem test_layout_chDec : Instr.layout (.chDec 1) = false := by decide
theorem test_layout_deinterleave : Instr.layout (.deinterleave 1) = false := by decide
theorem test_layout_diffDec2 : Instr.layout (.diffDec2 1) = false := by decide
theorem test_layout_descramble : Instr.layout (.descramble 1) = false := by decide
theorem test_layout_scrDetect : Instr.layout (.scrDetect 1) = false := by decide
theorem test_layout_procFrame : Instr.layout (.procFrame 1) = false := by decide
theorem test_layout_cchProc : Instr.layout (.cchProc 1) = false := by decide
theorem test_layout_tchProc : Instr.layout (.tchProc 1) = false := by decide
theorem test_wellFormed_refuses : Instr.wellFormed (.setScr 0 false 128) = false ∧ Instr.wellFormed (.process 1) = false := by
  decide
theorem test_wellFormed_accepts : Instr.wellFormed (.create 0 1 1) = true ∧ Instr.wellFormed (.feed 2047) = true ∧
    Instr.wellFormed (.setScr 0 false 127) = true ∧ Instr.wellFormed (.cchProc 0) = true := by decide

/-! Decoding: one word per operation, written out from R77 as `op` then `arg` -/

theorem test_decode_create : decode 0b00001_00000010110#16 = .ok (.create 1 1 2) := by decide
theorem test_decode_feed : decode 0b00010_11111111111#16 = .ok (.feed 2047) := by decide
theorem test_decode_process : decode 0b00011_00000000000#16 = .ok (.process 0) := by decide
theorem test_decode_getScr : decode 0b00100_00000000000#16 = .ok (.getScr 0) := by decide
theorem test_decode_setScr : decode 0b00101_01010000011#16 = .ok (.setScr 2 true 3) := by decide
theorem test_decode_getScrConfidence : decode 0b00110_00000000000#16 = .ok (.getScrConfidence 0) := by decide
theorem test_decode_setScrConfidence : decode 0b00111_10000000001#16 = .ok (.setScrConfidence 1025) := by decide
theorem test_decode_markerCmp : decode 0b10000_00000000000#16 = .ok (.markerCmp 0) := by decide
theorem test_decode_syncAcq : decode 0b10001_00000000000#16 = .ok (.syncAcq 0) := by decide
theorem test_decode_extract : decode 0b10010_00000000000#16 = .ok (.extract 0) := by decide
theorem test_decode_diffDec1 : decode 0b10011_00000000000#16 = .ok (.diffDec1 0) := by decide
theorem test_decode_chDec : decode 0b10100_00000000000#16 = .ok (.chDec 0) := by decide
theorem test_decode_deinterleave : decode 0b10101_00000000000#16 = .ok (.deinterleave 0) := by decide
theorem test_decode_diffDec2 : decode 0b10110_00000000000#16 = .ok (.diffDec2 0) := by decide
theorem test_decode_descramble : decode 0b10111_00000000000#16 = .ok (.descramble 0) := by decide
theorem test_decode_scrDetect : decode 0b11000_00000000000#16 = .ok (.scrDetect 0) := by decide
theorem test_decode_procFrame : decode 0b11001_00000000000#16 = .ok (.procFrame 0) := by decide
theorem test_decode_cchProc : decode 0b11010_00000000000#16 = .ok (.cchProc 0) := by decide
theorem test_decode_tchProc : decode 0b11011_00000000000#16 = .ok (.tchProc 0) := by decide
theorem test_decode_reserved : decode 0b00000_00000000000#16 = .error (.reservedOp 0) ∧
    decode 0b01000_00000000001#16 = .error (.reservedOp 8) ∧ decode 0b01111_00000000000#16 = .error (.reservedOp 15) ∧
    decode 0b11100_00000000000#16 = .error (.reservedOp 28) ∧ decode 0b11111_11111111111#16 = .error (.reservedOp 31) := by
  decide
theorem test_encode_setScr : encode (.setScr 0 false 127) = 0x287F#16 := by decide
theorem test_decodeTableWord : decodeTableWord 16 0x0801 = some (.create 0 0 1) ∧ decodeTableWord 16 0 = none := by decide
theorem test_withFetchWord : step (State.reset.withFetchWord 16 0x0801) = exec (.create 0 0 1) State.reset := rfl

/-! Parameter sets of file 95 section 2, and small states -/

/-- TPA, with no diagnostics. -/
def tpa : Config.Params where
  ilvUhfData := 1
  ilvUhfVoice := 1
  crcCheck := fun _ => true
  typePos := 0
  typeData := true
  idxHiPos := 1
  idxLoPos := 2
  st0Pos := 3
  st1Pos := 4
  emitsDiag := fun _ _ => false

set_option maxRecDepth 100000 in
/-- TPB's table. -/
def tpbTable : Equiv.Perm (Fin 152) where
  toFun j := 5 * j + 3
  invFun j := 61 * (j - 3)
  left_inv := by decide
  right_inv := by decide

/-- TPB, with no diagnostics but ScrLocked. -/
def tpb : Config.Params where
  ilvUhfData := tpbTable
  ilvUhfVoice := 1
  dist := fun j => if j % 3 = 1 ∧ 4 ≤ j then 2 else 1
  dist_pos := by intro j _ _; split <;> decide
  dist_le_two := by intro j _ _; split <;> decide
  dist_le_index := by intro j _ _; split <;> omega
  crcCheck := fun d => countOnes d % 2 == 0
  typePos := 0
  typeData := true
  idxHiPos := 1
  idxLoPos := 2
  st0Pos := 3
  st1Pos := 4
  emitsDiag := fun _ d => match d with
    | .scrLocked _ => true
    | _ => false

/-- A Control/UHF instance with this setting and this buffer. -/
def chan (v : Scr) (b : List Symbol) : Channel := { freshChannel .uhf .control with scr := v, buffer := b }

/-- That instance Synced. -/
def synced (v : Scr) (b : List Symbol) : Channel := { chan v b with syncState := .synced }

/-- A state that holds an instance, in which the block presents operations on a Frame of zeros. -/
def inBlock (c : Channel) : State :=
  { State.reset with inst := some c, issuer := .block, fr := some { data := 0, no := .unknown } }

/-- A state that holds an instance, in which the owner presents operations. -/
def owned (c : Channel) : State := { State.reset with inst := some c }

/-- A raw frame unit with a perfect marker, header symbol 0 = 0, and payload x. -/
def unit (x : FrameBits) : List Symbol := frameUnit false x

/-- n symbols 0. -/
def zeros (n : Nat) : List Symbol := List.replicate n false

/-- The instance, if the step answers. -/
def instOf (o : Host.Outcome State Fault Refusal) : Option Channel :=
  match o with
  | .next t => t.inst
  | .fault _ => none
  | .refused _ => none

/-- The result value, if the step answers. -/
def resultOf (o : Host.Outcome State Fault Refusal) : Option Result :=
  match o with
  | .next t => t.result
  | .fault _ => none
  | .refused _ => none

def plainA : DecodedBits := 0x35cb6bda596509b4f3#76
def plainB : DecodedBits := 0x82dfaffb7e903e7c6f#76
def f1 : FrameBits := 0xe849bd28a1258a1f4af4af770dfa287e5be8#152
def f4 : FrameBits := 0xd1419297105040b14690585dbe6fd2fd8805f3#152
def raw : FrameBits := 0x73c2b7b930f0c1d3cbb0e8e6c2b07706980e15#152
def g1 : FrameBits := 0xdc0d28956125556289561f700e56f95b3a25b#152
def g2 : FrameBits := 0xa9a32cb86d528041cad1722a8b93324caf4fd8#152
def g3 : FrameBits := 0x96a11b981cd27fc045ceee1a77710db45d3938#152
def g4 : FrameBits := 0x9e91b850af7b8bf8d6a595002abda64c4d587f#152

/-! The vectors of file 95 -/

theorem test_V_CMP_5 : markerCmp [false, false, true, false, true, true, false, false] 0 = .ok 7 := by decide
theorem test_V_CMP_3 : markerCmp [false, false, false, true, false, false, true, true] 0 = .ok 1 := by decide
theorem test_markerCmp_outside : markerCmp [true, false, true, false, false, true, true] 0 = .error .readOutsideBuffer := by decide
theorem test_V_SYNC_3 :
    (syncAcq (chan .auto ([true, true, true] ++ unit 0 ++ [false, true, false, true, false, true, true, true] ++ zeros 10))).map
      (fun r => (r.1.buffer.length, r.2)) = .ok (178, .found) := by decide +kernel
theorem test_V_SYNC_4 :
    (syncAcq (chan .auto ([false, true, true, true, false, false, true, true] ++ zeros 152 ++ [false, true, false, true, false, true, true, true] ++ zeros 10))).map
      (fun r => (r.1.buffer.length, r.2)) = .ok (167, .notFound) := by decide +kernel
theorem test_V_EXT_7 : (extract (synced .auto (zeros 159))).map Prod.snd = .ok .noFrameYet := by decide +kernel
theorem test_V_EXT_8 : (extract (synced .auto (unit raw))).map Prod.snd =
    .ok (.frame { data := f4, no := .unknown }) := by decide +kernel
theorem test_V_DD1_4 : diffDec1 1 = BitVec.allOnes 152 := by decide +kernel
theorem test_V_CH_3 : chDec { data := f1, no := .unknown } = { data := plainA, err := 0, no := .unknown } := by
  decide +kernel
theorem test_V_CH_g1 : chDec { data := g1, no := .unknown } = { data := plainB, err := 0, no := .unknown } := by
  decide +kernel
theorem test_V_IL_4 : deinterleave tpb.ilvUhfData g2 = g1 := by decide +kernel
theorem test_V_DD2_1 : diffDec2 tpb.dist g3 = g2 := by decide +kernel
theorem test_V_DD2_5 : diffDec2 tpb.dist 1 = 3 := by decide +kernel
theorem test_V_DS_1 : descramble 0 1 = 1 := by decide +kernel
theorem test_V_DS_6 : descramble 100 g4 = g3 := by decide +kernel
theorem test_frame_A : forwardPayload tpa 5 plainA = raw := by decide +kernel

/-- V-SCR-5, after the update: 3 and 3, the lowest index wins, nothing is committed. -/
theorem test_V_SCR_5 : bestCandidate (((Vector.replicate 128 0).set 7 3).set 100 3) = 7 ∧
    commits (((Vector.replicate 128 0).set 7 3).set 100 3) 0 = false ∧ scoreAfter false 5 = 3 ∧
    scoreAfter true 2 = 3 ∧ scoreAfter false 1 = 0 := by decide +kernel
/-- V-SCR-6, after the update: candidate 100 leads by more than the margin 0, and not by more than 2. -/
theorem test_V_SCR_6 : bestCandidate (((Vector.replicate 128 0).set 7 1).set 100 3) = 100 ∧
    commits (((Vector.replicate 128 0).set 7 1).set 100 3) 0 = true ∧
    commits (((Vector.replicate 128 0).set 7 1).set 100 3) 2 = false := by decide +kernel
/-- V-CCH-2 (its good frame). -/
theorem test_V_CCH_good : cchProc tpb (chan (.known 100) []) { data := g4, no := .unknown } [] =
    (.dispatched, [.reasmDispatch plainB 3]) := by decide +kernel
/-- V-CCH-5: the wrong constant 99. -/
theorem test_V_CCH_5 : cchProc tpb (chan (.known 99) []) { data := g4, no := .unknown } [] =
    (.dropped .channelDecodeError, [.reasmReset]) := by decide +kernel
theorem test_procFrame_traffic : exec (.procFrame 0) (inBlock { chan .auto [] with channelKind := .traffic }) =
    .next { inBlock { chan .auto [] with channelKind := .traffic } with
      fr := none, result := some (.frame .unsupported) } := rfl
theorem test_tchProc : resultOf (exec (.tchProc 0) (inBlock (chan .auto []))) = some (.frame .unsupported) := rfl
/-- P1 (E7): both copies of frame A come out with index 2. -/
theorem test_P1 : process tpa (chan (.known 5) (unit raw ++ unit raw)) =
    .ok (synced (.known 5) [], .idle, [.reasmReset, .reasmDispatch plainA 2, .reasmDispatch plainA 2]) := by
  decide +kernel
/-- P6, with one frame: the status of an unsupported configuration. -/
theorem test_P6 : process tpa { synced .auto (unit raw) with channelKind := .traffic } =
    .ok ({ synced .auto [] with channelKind := .traffic }, .unsupported, []) := by decide +kernel
/-- V-HOST-1, V-HOST-3, V-HOST-4, V-HOST-10, V-HOST-11. -/
theorem test_V_HOST_errors :
    resultOf (step (State.reset.withFetchWord 16 0x1800)) = some (.err .noInstance) ∧
    resultOf (step (State.reset.withFetchWord 16 0x0802)) = some (.err .configError) ∧
    resultOf (step (State.reset.withFetchWord 16 0x0811)) = some (.err .badOperand) ∧
    resultOf (step ((owned (chan .auto [])).withFetchWord 16 0x0000)) = some (.err .badOperation) ∧
    resultOf (step ((owned (chan .auto [])).withFetchWord 16 0x9000)) = some (.err .badOperation) := by decide +kernel
/-- V-HOST-2. -/
theorem test_V_HOST_2 : instOf (step (State.reset.withFetchWord 16 0x0801)) = some (chan .auto []) := by decide +kernel
/-- V-HOST-5, V-HOST-6, V-HOST-8. -/
theorem test_V_HOST_5_6_8 :
    resultOf (step ((owned (chan .auto [])).withFetchWord 16 0x2000)) = some (.scr .auto) ∧
    resultOf (step ((owned (chan .auto [])).withFetchWord 16 0x3000)) = some (.confidence 50) ∧
    resultOf (step ((owned (chan .auto [])).withFetchWord 16 0x2885)) = some (.err .badOperand) := by decide +kernel
/-- V-HOST-7, V-HOST-9. -/
theorem test_V_HOST_7_9 :
    instOf (step ((owned (chan .auto [])).withFetchWord 16 0x287F)) = some (chan (.known 127) []) ∧
    instOf (step ((owned (chan .auto [])).withFetchWord 16 0x3800)) =
      some { chan .auto [] with scrConfidence := 0 } := by decide +kernel
/-- V-HOST-12, its second FEED: 600 of 1000 symbols are admitted. -/
theorem test_V_HOST_12 :
    resultOf (exec (.feed 1000) { owned (chan .auto (zeros 1000)) with symIn := zeros 1000 }) =
      some (.consumed 600) := by decide +kernel
theorem test_P5_overflow : resultOf (exec (.feed 5) { owned (chan .auto (zeros 1600)) with symIn := zeros 5 }) =
    some (.consumed 0) := by decide +kernel
/-- The textual form and the pseudo-operations (R81, R82). -/
theorem test_preset : presetOps .uhf .control (.known 5) = [.create 0 0 1, .setScr 0 false 5] ∧
    presetOps .vhf .traffic .auto = [.create 0 1 0, .setScr 0 true 0] := by decide

/-! Witnesses: states and operands that meet the hypotheses of a statement together, each clause at a boundary -/

theorem test_wit_StepRunsTheDecodedOperation :
    (State.reset.withFetchWord 16 0x0801).opIn = 0x0801#16 :: [] ∧ decode 0x0801 = .ok (.create 0 0 1) := by decide

theorem test_wit_ReservedOpAnswersBadOperation :
    ({ State.reset with opIn := [0xFFFF#16] } : State).opIn = 0xFFFF#16 :: [] ∧
    (0x07FF#16).toNat / 2048 = 0 ∧ 8 ≤ (0x4000#16).toNat / 2048 ∧ (0x7FFF#16).toNat / 2048 ≤ 15 ∧
    28 ≤ (0xE000#16).toNat / 2048 ∧ 28 ≤ (0xFFFF#16).toNat / 2048 := by
  refine ⟨rfl, ?_⟩; decide

theorem test_wit_NothingHappensBetweenOperations : State.reset.opIn = [] := rfl

theorem test_wit_DecodeOfEncode : ∀ i ∈ [Instr.feed 2047, .setScr 7 true 127, .create 127 3 3, .tchProc 2047, .markerCmp 0],
    i.fits = true := by decide

theorem test_wit_EncodeOfDecode : decode 0x0800 = .ok (.create 0 0 0) ∧ decode 0xDFFF = .ok (.tchProc 2047) := by decide

theorem test_wit_StepKeepsTheInvariant : State.reset.Inv ∧ ∃ t, step (State.reset.withFetchWord 16 0x0801) = .next t ∧
    (State.reset.withFetchWord 16 0x0801).Inv :=
  ⟨⟨rfl, rfl, rfl, fun _ h => nomatch h⟩, _, rfl, ⟨rfl, rfl, rfl, fun _ h => nomatch h⟩⟩

theorem chan_inv : (chan (.known 5) (zeros 2)).Inv :=
  ⟨by decide, by decide, by decide, nofun, rfl, fun _ => rfl⟩

/-- An instance, and a FEED of 2 with its 2 symbols. -/
theorem test_wit_GoodStatesNeverStop :
    let s : State := { owned (chan (.known 5) (zeros 2)) with opIn := [0x1002], symIn := zeros 2 }
    s.Inv ∧ decode 0x1002 = .ok (.feed 2) ∧ 2 ≤ s.symIn.length :=
  ⟨⟨rfl, rfl, rfl, fun _ h => Option.some.inj h ▸ chan_inv⟩, by decide, by decide⟩

theorem test_wit_CreateRefusesIllegalWords :
    (2 ≤ (2#2).toNat ∨ 2 ≤ (1#2).toNat) ∧ (2 ≤ (0#2).toNat ∨ 2 ≤ (3#2).toNat) ∧
    ((1#2).toNat < 2 ∧ (0#2).toNat < 2 ∧ 64#7 ≠ 0) := by decide

/-- Room for 1, 2 symbols offered; room for none; none offered. -/
theorem test_wit_FeedAppendsWhatFits :
    (owned (chan .auto (zeros 1599))).inst = some (chan .auto (zeros 1599)) ∧
    (owned (chan .auto (zeros 1600))).inst = some (chan .auto (zeros 1600)) ∧ 2 ≤ (zeros 2).length ∧
    0 ≤ (zeros 0).length := ⟨rfl, rfl, by decide, by decide⟩

theorem test_wit_FeedSplits :
    (owned (chan .auto [])).inst = some (chan .auto []) ∧ 1 + 1 ≤ (zeros 2).length := ⟨rfl, by decide⟩

theorem test_wit_FeedWithoutItsSymbolsIsRefused :
    (owned (chan .auto [])).inst = some (chan .auto []) ∧ (owned (chan .auto [])).symIn.length < 1 := ⟨rfl, by decide⟩

/-- The hypotheses of the five clauses of SetScrWritesAndClears. -/
theorem test_wit_SetScrWritesAndClears :
    (owned (chan .auto [])).inst = some (chan .auto []) ∧ (127 < 128) ∧ 127 < 128 ∧ (1 ≠ 0) ∧ (1#3 ≠ 0) := by
  refine ⟨rfl, ?_⟩; decide

theorem test_wit_NonzeroArgIsBadOperand :
    (owned (chan .auto [])).inst = some (chan .auto []) ∧ (1024#11 : Arg) ≠ 0 := ⟨rfl, by decide⟩

theorem test_wit_AbsentAnswersNoInstance : State.reset.inst = none ∧ (Instr.process 0).isInternal = false ∧
    (∀ r k b, Instr.process 0 ≠ .create r k b) ∧ (∀ n, Instr.process 0 ≠ .feed n) := ⟨rfl, rfl, nofun, nofun⟩

theorem test_wit_OwnerCannotIssueInternalOperations :
    (Instr.extract 0).isInternal = true ∧ (owned (chan .auto [])).issuer = .owner := by decide

theorem test_wit_InternalOperationsOutsideTheirDomain :
    (Instr.extract 1).isInternal = true ∧ (Instr.extract 1).arg ≠ 0 ∧ (Instr.extract 0).arg = 0 ∧
    ({ State.reset with issuer := .block } : State).issuer = .block ∧
    ({ State.reset with issuer := .block } : State).inst = none := by
  refine ⟨rfl, ?_, ?_, rfl, rfl⟩ <;> decide

theorem test_wit_OnlyProcessEmitsAndSynchronizes :
    (Instr.getScr 0).isInternal = false ∧ (∀ a, Instr.getScr 0 ≠ .process a) ∧
    (∃ t, exec (.getScr 0) (owned (chan .auto [])) = .next t) ∧ (∀ n, Instr.getScr 0 ≠ .feed n) ∧
    (∀ r k b, Instr.getScr 0 ≠ .create r k b) ∧ (owned (chan .auto [])).inst = some (chan .auto []) :=
  ⟨rfl, nofun, ⟨_, rfl⟩, nofun, nofun, rfl⟩

theorem test_wit_PseudoOperationsExpand : 10 * (zeros 160).length ≤ 1600 ∧ 0 * (zeros 160).length ≤ 1600 := by decide +kernel

theorem test_wit_MarkerCmpCountsMismatches :
    (inBlock (chan .auto (zeros 8))).issuer = .block ∧
    (inBlock (chan .auto (zeros 8))).inst = some (chan .auto (zeros 8)) ∧
    (inBlock (chan .auto (zeros 8))).opP + 7 < (chan .auto (zeros 8)).buffer.length := ⟨rfl, rfl, by decide⟩

theorem test_wit_MarkerCmpStopsOutsideTheBuffer :
    (inBlock (chan .auto (zeros 7))).issuer = .block ∧
    (inBlock (chan .auto (zeros 7))).inst = some (chan .auto (zeros 7)) ∧
    (chan .auto (zeros 7)).buffer.length ≤ (inBlock (chan .auto (zeros 7))).opP + 7 := ⟨rfl, rfl, by decide⟩

/-- Offset 0 of a perfect pair; and 168 zeros, whose only offset has 4 + 4 mismatches. -/
theorem test_wit_SyncAcqFindsTheEarliestPair :
    (0 + 168 ≤ (unit 0 ++ unit 0).length ∧ pairErrors (unit 0 ++ unit 0) 0 ≤ 1 ∧
      ∀ j, j < 0 → 1 < pairErrors (unit 0 ++ unit 0) j) ∧
    (∀ o, o + 168 ≤ (zeros 168).length → 1 < pairErrors (zeros 168) o) := by
  refine ⟨⟨by decide +kernel, by decide +kernel, nofun⟩, fun o ho => ?_⟩
  have h : (zeros 168).length = 168 := by decide +kernel
  obtain rfl : o = 0 := by omega
  decide +kernel

/-- 160 zeros have 4 mismatches, a unit has none; the four cases of EXTRACT at their bounds. -/
theorem test_wit_ExtractFollowsTheEscalationPolicy :
    (zeros 159).length < 160 ∧ 160 ≤ (unit 0).length ∧ markerErrors (unit 0) 0 + 1 ≤ 1 ∧
    160 ≤ (zeros 160).length ∧ 1 < markerErrors (zeros 160) 0 + 0 ∧ 1 + 2 * 79 < 160 ∧ 160 ≤ 1 + 2 * 80 := by
  decide +kernel

theorem test_wit_EighthBadFrameLosesSync :
    (inBlock (chan .auto (zeros 160))).issuer = .block ∧ 160 ≤ (zeros 160).length ∧
    1 < markerErrors (zeros 160) 0 + (chan .auto (zeros 160)).lastSyncErr ∧
    (chan .auto (zeros 160)).totalSyncErr = 2 ^ 0 - 1 ∧
    ({ chan .auto (zeros 160) with totalSyncErr := 63 } : Channel).totalSyncErr = 2 ^ 6 - 1 ∧
    ({ chan .auto (zeros 160) with totalSyncErr := 127 } : Channel).totalSyncErr = 2 ^ 7 - 1 := by decide +kernel

/-- What every statement about one internal operation asks for: the block presents it, an instance (UHF or VHF), a
Frame or none. -/
theorem test_wit_internal_operations :
    (inBlock (chan .auto [])).issuer = .block ∧ (inBlock (chan .auto [])).inst = some (chan .auto []) ∧
    (chan .auto []).band = .uhf ∧ (inBlock (chan .auto [])).fr = some { data := 0, no := .unknown } ∧
    ({ chan .auto [] with band := .vhf } : Channel).band = .vhf ∧
    ({ inBlock (chan .auto []) with fr := none } : State).fr = none := ⟨rfl, rfl, rfl, rfl, rfl, rfl⟩

theorem test_wit_ErrorFreeInputsAreTheCode : errorCount (chDec { data := g1, no := .unknown }) = 0 := by decide +kernel

/-- The two ends of the flipped positions, and what R122 gives there. -/
theorem test_wit_OneWrongSymbolIsDetected :
    errorCount (chDec { data := xorAt (chEnc plainA) 0 true, no := .unknown }) = 2 ∧
    errorCount (chDec { data := xorAt (chEnc plainA) 151 true, no := .unknown }) = 3 := by decide +kernel

theorem test_wit_DescrambleFollowsTheSequence :
    ({ inBlock (chan .auto []) with opC := 0 } : State).opC = 0 ∧
    ({ inBlock (chan .auto []) with opC := 127 } : State).opC ≠ 0 := by decide

/-- With all scores 0 and margin 50 no candidate leads enough, whatever the parameters. -/
theorem test_wit_ScrDetect_no_commit : ∀ best : Fin 128, ∃ j : Fin 128, j ≠ best ∧
    (scoresAfter Config.params { data := 0, no := .unknown } (chan .auto []).scrStat)[best] ≤
      (scoresAfter Config.params { data := 0, no := .unknown } (chan .auto []).scrStat)[j] +
        (chan .auto []).scrConfidence := by
  intro best
  obtain ⟨j, hj⟩ : ∃ j : Fin 128, j ≠ best := exists_ne best
  refine ⟨j, hj, ?_⟩
  have h : (chan .auto []).scrStat[best] = 0 := by simp [chan, freshChannel]
  have hc : (chan .auto []).scrConfidence = 50 := rfl
  rw [scoresAfter_getElem, h, hc]
  split <;> omega

/-- With candidate 5 at 100 and the others at 0 it leads by more than 50, whatever the parameters. -/
theorem test_wit_ScrDetect_commit : ∀ j : Fin 128, j ≠ 5 →
    (scoresAfter Config.params { data := 0, no := .unknown } ((Vector.replicate 128 0).set 5 100))[j] + 50 <
      (scoresAfter Config.params { data := 0, no := .unknown } ((Vector.replicate 128 0).set 5 100))[(5 : Fin 128)] := by
  intro j hj
  have hne : (5 : Nat) ≠ j.val := fun h => hj (Fin.ext h.symm)
  have h : ((Vector.replicate 128 0).set 5 100)[j] = 0 := by
    rw [Fin.getElem_fin, Vector.getElem_set_ne (by omega) (by omega) hne]; simp
  have h5 : ((Vector.replicate 128 0).set 5 100)[(5 : Fin 128)] = 100 := by
    rw [Fin.getElem_fin]; exact Vector.getElem_set_self _
  rw [scoresAfter_getElem, scoresAfter_getElem, h, h5]
  split <;> split <;> omega

theorem test_wit_ProcFrameDispatchesOnTheConfiguration :
    ({ chan .auto [] with channelKind := .traffic } : Channel).channelKind = .traffic ∧
    ({ chan .auto [] with band := .vhf } : Channel).band = .vhf ∧ (chan (.known 0) []).channelKind = .control ∧
    (chan (.known 0) []).scr = .known 0 ∧ (chan .auto []).scr = .auto := ⟨rfl, rfl, rfl, rfl, rfl⟩

/-- TPA with a CRC_CHECK that accepts the zero block only. -/
def tpz : Config.Params := { tpa with crcCheck := fun d => d == 0 }

/-- V-SCR-7: of the all-zero Frame candidate 0 alone succeeds. -/
theorem zero_frame_passes (j : Fin 128) : trialPasses tpz { data := 0, no := .unknown } j = decide (j = 0) := by
  by_cases hj : j = 0
  · subst hj; decide +kernel
  · rw [decide_eq_false hj, Bool.eq_false_iff]
    intro h
    obtain ⟨he, hd⟩ := (trialPasses_iff _ _ _).1 h
    have hd : (trialDecode tpz { data := 0, no := .unknown } j).data = 0 := by simpa [tpz] using hd
    have he := (countOnes_eq_zero _).1 he
    generalize hx : ({ data := deinterleave tpz.ilvUhfData (diffDec2 tpz.dist (descramble j 0)), no := .unknown } : Frame) = f
    have ht : trialDecode tpz { data := 0, no := .unknown } j = chDec f := by rw [← hx]; rfl
    rw [ht] at he hd
    have lowEq : ∀ i, i < 26 → f.data.getLsbD ((2 * i + 2) % 52) = f.data.getLsbD ((2 * i + 3) % 52) := fun i hi => by
      have := chDec_data_low f i hi
      rw [hd] at this
      simpa [resBit] using this.symm
    have highEq : ∀ i, i < 50 → f.data.getLsbD (52 + (2 * i + 2) % 100) = f.data.getLsbD (52 + (2 * i + 3) % 100) :=
      fun i hi => by
        have := chDec_data_high f i hi
        rw [hd] at this
        simpa [resBit] using this.symm
    have lowOdd : ∀ i, i < 26 → f.data.getLsbD ((2 * i + 5) % 52) = false := fun i hi => by
      have h1 := chDec_err_low f i hi
      rw [he, ← chDec_data_low f i hi, hd] at h1
      have h2 := lowEq ((i + 2) % 26) (by omega)
      rw [show (2 * ((i + 2) % 26) + 2) % 52 = (2 * i + 6) % 52 by omega,
        show (2 * ((i + 2) % 26) + 3) % 52 = (2 * i + 7) % 52 by omega] at h2
      simpa [chkBit, h2, Bool.xor_assoc] using h1.symm
    have highOdd : ∀ i, i < 50 → f.data.getLsbD (52 + (2 * i + 5) % 100) = false := fun i hi => by
      have h1 := chDec_err_high f i hi
      rw [he, ← chDec_data_high f i hi, hd] at h1
      have h2 := highEq ((i + 2) % 50) (by omega)
      rw [show (2 * ((i + 2) % 50) + 2) % 100 = (2 * i + 6) % 100 by omega,
        show (2 * ((i + 2) % 50) + 3) % 100 = (2 * i + 7) % 100 by omega] at h2
      simpa [chkBit, h2, Bool.xor_assoc] using h1.symm
    have zero : ∀ k, k < 152 → f.data.getLsbD k = false := fun k hk => by
      by_cases hl : k < 52
      · have h1 := lowEq (k / 2 + 25 - 26 * ((k / 2 + 25) / 26)) (by omega)
        have h2 := lowOdd (k / 2 + 24 - 26 * ((k / 2 + 24) / 26)) (by omega)
        rw [show (2 * (k / 2 + 25 - 26 * ((k / 2 + 25) / 26)) + 2) % 52 = 2 * (k / 2) by omega,
          show (2 * (k / 2 + 25 - 26 * ((k / 2 + 25) / 26)) + 3) % 52 = 2 * (k / 2) + 1 by omega] at h1
        rw [show (2 * (k / 2 + 24 - 26 * ((k / 2 + 24) / 26)) + 5) % 52 = 2 * (k / 2) + 1 by omega] at h2
        rcases Nat.mod_two_eq_zero_or_one k with h | h
        · rw [show k = 2 * (k / 2) by omega, h1, h2]
        · rw [show k = 2 * (k / 2) + 1 by omega, h2]
      · obtain ⟨m, rfl⟩ : ∃ m, k = 52 + m := ⟨k - 52, by omega⟩
        have h1 := highEq (m / 2 + 49 - 50 * ((m / 2 + 49) / 50)) (by omega)
        have h2 := highOdd (m / 2 + 48 - 50 * ((m / 2 + 48) / 50)) (by omega)
        rw [show (2 * (m / 2 + 49 - 50 * ((m / 2 + 49) / 50)) + 2) % 100 = 2 * (m / 2) by omega,
          show (2 * (m / 2 + 49 - 50 * ((m / 2 + 49) / 50)) + 3) % 100 = 2 * (m / 2) + 1 by omega] at h1
        rw [show (2 * (m / 2 + 48 - 50 * ((m / 2 + 48) / 50)) + 5) % 100 = 2 * (m / 2) + 1 by omega] at h2
        rcases Nat.mod_two_eq_zero_or_one m with h | h
        · rw [show m = 2 * (m / 2) by omega, h1, h2]
        · rw [show m = 2 * (m / 2) + 1 by omega, h2]
    have zeroD : ∀ k, k < 152 → (diffDec2 tpz.dist (descramble j 0)).getLsbD k = false := fun k hk => by
      have h1 := zero k hk
      rw [← hx, deinterleave_getLsbD _ _ ⟨k, hk⟩] at h1
      exact h1
    have zeroS : ∀ k, k < 152 → (descramble j 0).getLsbD k = false := fun k => by
      induction k with
      | zero =>
        intro hk
        have h1 := zeroD 0 hk
        rwa [diffDec2, diffDec2From_getLsbD _ tpz.dist_pos _ (by omega) _ _ hk, if_neg (by omega)] at h1
      | succ k ih =>
        intro hk
        have h1 := zeroD (k + 1) hk
        rw [diffDec2, diffDec2From_getLsbD _ tpz.dist_pos _ (by omega) _ _ hk, if_pos (by omega),
          show k + 1 - tpz.dist (k + 1) = k from rfl, ih (by omega)] at h1
        simpa using h1
    have hjv : j.val ≠ 0 := fun h => hj (Fin.ext h)
    have h1 := zeroS ((127 - j.val) % 127) (by omega)
    rw [descramble_getLsbD hj _ _ (by omega), show ((127 - j.val) % 127 + j.val) % 127 = 0 by omega] at h1
    have hs : scrSeq 0 = true := by decide
    rw [hs] at h1
    simp at h1

/-- One such Frame, margin 0: the second clause. None of them: the first. -/
theorem test_wit_DetectorConverges :
    (∀ f ∈ [({ data := 0, no := .unknown } : Frame)], ∀ j, trialPasses tpz f j = decide (j = 0)) ∧
    (chan .auto []).scr = .auto ∧ (chan .auto []).scrStat = Vector.replicate 128 0 ∧
    [({ data := 0, no := .unknown } : Frame)].length = ({ chan .auto [] with scrConfidence := 0 } : Channel).scrConfidence + 1 ∧
    [({ data := 0, no := .unknown } : Frame)].length ≤ (chan .auto []).scrConfidence := by
  refine ⟨fun f hf j => ?_, rfl, zeroScores_eq_replicate, rfl, by decide⟩
  rw [List.mem_singleton.1 hf]
  exact zero_frame_passes j

/-- Absent of symbols, NotSynced and Synced: what the statements about PROCESS ask for. -/
theorem test_wit_process : (owned (chan .auto [])).inst = some (chan .auto []) ∧
    (chan .auto []).syncState = .notSynced ∧ (synced .auto []).syncState = .synced ∧
    (∃ t, exec (.process 0) (owned (chan .auto [])) = .next t ∧ mandatory t.events = []) :=
  ⟨rfl, rfl, rfl, _, rfl, rfl⟩

theorem test_wit_EveryRunOfTheDriveLoopIsProcess : (owned (synced .auto [])).inst = some (synced .auto []) ∧
    ∃ c', DriveRuns Config.params (synced .auto []) c' .idle [] := by
  refine ⟨rfl, ?_⟩
  have h0 : (synced .auto []).buffer.length = 0 := rfl
  rcases extract_spec (synced .auto []) with ⟨_, h⟩ | ⟨h, _⟩ | ⟨h, _⟩ | ⟨h, _⟩
  · exact ⟨_, .synced rfl (.noFrameYet h)⟩
  all_goals omega

theorem test_wit_AccessorsUseOneField : (owned (chan .auto [])).inst = some (chan .auto []) := rfl

theorem test_wit_ProcessIsIdempotentWhenDrained :
    (instOf (exec (.process 0) (owned (synced .auto [true])))).map Channel.syncState = some .synced := by decide +kernel

/-- The smallest counter at which a bad frame is the last one. -/
theorem test_wit_SyncLossKeepsTheBuffer :
    (synced .auto (zeros 160)).syncState = .synced ∧ 160 ≤ (synced .auto (zeros 160)).buffer.length ∧
    1 < markerErrors (synced .auto (zeros 160)).buffer 0 + (synced .auto (zeros 160)).lastSyncErr ∧
    160 ≤ 1 + 2 * ({ synced .auto (zeros 160) with totalSyncErr := 80 } : Channel).totalSyncErr := by decide +kernel

/-- One frame of an unsupported configuration, from frame number 199 and from Unknown. -/
theorem test_wit_FrameNumberCountsFrames :
    (instOf (exec (.process 0) (owned { synced .auto (unit 0) with
      channelKind := .traffic, frameNo := .known 199 }))).map Channel.frameNo = some (.known 0) ∧
    (instOf (exec (.process 0) (owned { synced .auto (unit 0) with
      channelKind := .traffic }))).map Channel.frameNo = some .unknown := by decide +kernel

/-- Traffic, Synced with one frame; VHF, NotSynced with too few symbols. -/
theorem test_wit_UnsupportedConfigurationIsReported :
    resultOf (exec (.process 0) (owned { synced .auto (unit 0) with channelKind := .traffic })) =
      some (.status .unsupported) ∧
    (instOf (exec (.process 0) (owned { chan .auto (zeros 167) with band := .vhf }))).map Channel.syncState =
      some .notSynced := by decide +kernel

theorem test_wit_DiagnosticsChangeNothing :
    (∃ c st es, process tpa (chan (.known 5) (unit raw ++ unit raw)) = .ok (c, st, es)) ∧
    (∃ c st es, process { tpa with emitsDiag := fun _ _ => true } (chan (.known 5) []) = .ok (c, st, es)) ∧
    (∃ c st es, process tpa (chan (.known 5) []) = .ok (c, st, es)) :=
  ⟨⟨_, _, _, test_P1⟩, ⟨_, _, _, rfl⟩, ⟨_, _, _, rfl⟩⟩

theorem test_wit_EndToEndDelivery :
    (chan (.known 5) []).channelKind = .control ∧ (chan (.known 5) []).band = .uhf ∧
    (chan (.known 5) []).syncState = .notSynced ∧ (chan (.known 5) []).scr = .known 5 ∧
    plainA.getLsbD tpa.typePos = tpa.typeData ∧ tpa.crcCheck plainA = true ∧
    plainB.getLsbD tpb.typePos = tpb.typeData ∧ tpb.crcCheck plainB = true := by
  refine ⟨rfl, rfl, rfl, rfl, ?_⟩
  decide +kernel

end Sys2Proof.Tests
end

section
/-! # Proofs of family 10_state: the fresh instance, the operations on `FR`, and the invariant of every step

The invariant is proved along the layers of the model: each update of a `Channel`, then EXTRACT's loop and PROCESS,
then each way a host operation answers, and at last `exec` and `step`. -/

namespace Sys2Proof.Machine

/-! ## CREATE -/

/-- The codes of R75 name their values back, and no reserved bit is set. -/
theorem createOperands_code (b : Band) (k : ChannelKind) : createOperands 0 k.code b.code = .ok (b, k) := by
  cases b <;> cases k <;> rfl

/-- CREATE with legal operands, as a whole next state (R181). -/
theorem exec_create_of_ok {rsv : BitVec 7} {kind band : BitVec 2} {b : Band} {k : ChannelKind}
    (h : createOperands rsv kind band = .ok (b, k)) (s : State) :
    exec (.create rsv kind band) s = .next { s with
      inst := some (freshChannel b k), fr := none, df := none, result := some .ok, events := [] } := by
  simp only [exec, execCreate, h]
  rfl

/-- The fresh instance, with its scores written as R40's table writes them. -/
theorem freshChannel_eq (b : Band) (k : ChannelKind) :
    freshChannel b k =
      { band := b, channelKind := k, syncState := .notSynced, lastSyncErr := 0, totalSyncErr := 0,
        frameNo := .unknown, scr := .auto, scrGuess := 0, scrConfidence := 50,
        scrStat := Vector.replicate 128 0, buffer := [] } := by
  rw [freshChannel, zeroScores_eq_replicate]

/-- Settles O11: the operands are legal, and the fresh instance is R40's table. -/
theorem createMakesTheFreshInstance : Obligations.CreateMakesTheFreshInstance := by
  intro s b k
  rw [exec_create_of_ok (createOperands_code b k), freshChannel_eq]

/-! ## The operations on `FR` -/

/-- The block's check passes, then the missing Frame stops the operation (R32, R33). -/
theorem asInternal_withFrame_none {s : State} {c : Channel} (hb : s.issuer = .block) (hc : s.inst = some c)
    (hf : s.fr = none) (g : Channel → Frame → Host.Outcome State Fault Refusal) :
    asInternal s 0#11 (fun c => withFrame s (g c)) = .refused .noFrame :=
  (asInternal_block hb hc _).trans (withFrame_none hf _)

/-- Settles O40: each of the seven operations reads `FR` before it does anything else. -/
theorem frameOperationsNeedAFrame : Obligations.FrameOperationsNeedAFrame := by
  intro s c hb hc hf i hi
  simp only [List.mem_cons, List.not_mem_nil, or_false] at hi
  rcases hi with rfl | rfl | rfl | rfl | rfl | rfl | rfl
  all_goals exact asInternal_withFrame_none hb hc hf _

/-! ## The invariant of the instance -/

theorem zero_mem_reachableTotals : 0 ∈ reachableTotals := by decide

/-- One escalation from a value below 160 ends in a reachable value: from 127 it ends in 255 (R113). -/
theorem escalate_mem_reachableTotals :
    ∀ t ∈ reachableTotals, t < 160 → 1 + 2 * t ∈ reachableTotals := by decide

theorem freshChannel_inv (b : Band) (k : ChannelKind) : (freshChannel b k).Inv where
  buffer_le := Nat.zero_le _
  last_le := Nat.zero_le _
  total_mem := zero_mem_reachableTotals
  total_lt := nofun
  frameNo_unknown := rfl
  scores_zero h := absurd rfl h

theorem Channel.Inv.writeScr {c : Channel} (h : c.Inv) (v : Scr) : (c.writeScr v).Inv :=
  { h with scores_zero := fun _ => rfl }

theorem Channel.Inv.setConfidence {c : Channel} (h : c.Inv) (n : Nat) : { c with scrConfidence := n }.Inv :=
  { h with }

/-- A shorter or longer buffer is fine while it stays within its capacity (R37). -/
theorem Channel.Inv.setBuffer {c : Channel} (h : c.Inv) {b : List Symbol} (hb : b.length ≤ bufCap) :
    { c with buffer := b }.Inv :=
  { h with buffer_le := hb }

/-- Dropping symbols from the front keeps the buffer within its capacity. -/
theorem Channel.Inv.drop_le {c : Channel} (h : c.Inv) (n : Nat) : (c.buffer.drop n).length ≤ bufCap :=
  (List.drop_sublist n c.buffer).length_le.trans h.buffer_le

/-- FEED never fills the buffer beyond its capacity (R182). -/
theorem length_bufAppend_admitted_le {b : List Symbol} (hb : b.length ≤ bufCap) (n : Nat) (l : List Symbol) :
    (bufAppend b (l.take (admitted b n))).length ≤ bufCap := by
  simp only [bufAppend, admitted, bufLen, List.length_append, List.length_take]
  omega

/-- SYNC_ACQ found a pair: the counters are 0 and the loop starts Synced with no frame number (R101, R180). -/
theorem Channel.Inv.synchronized {c : Channel} (h : c.Inv) (o : Nat) :
    { c with buffer := c.buffer.drop o, lastSyncErr := 0, totalSyncErr := 0,
             syncState := .synced, frameNo := .unknown }.Inv where
  buffer_le := h.drop_le o
  last_le := Nat.zero_le _
  total_mem := zero_mem_reachableTotals
  total_lt _ := Nat.zero_lt_succ 159
  frameNo_unknown := rfl
  scores_zero := h.scores_zero

/-- Synchronization lost: the escalated counter may be 255, for the instance is no longer Synced (R110, R113). -/
theorem Channel.Inv.lost {c : Channel} (h : c.Inv) (hs : c.syncState = .synced) :
    { c with totalSyncErr := 1 + 2 * c.totalSyncErr, syncState := .notSynced }.Inv :=
  { h with
    total_mem := escalate_mem_reachableTotals _ h.total_mem (h.total_lt hs)
    total_lt := nofun }

/-- A frame was extracted with the counter left at t, and PROC_FRAME ran on it: it either kept the detector's fields
while `scr` is Known, or cleared the scores when it changed `scr` (R165). -/
theorem Channel.Inv.afterFrame {c : Channel} (h : c.Inv) {t e : Nat} (ht : t ∈ reachableTotals) (hlt : t < 160)
    (he : e ≤ 7) {scr : Scr} {guess : Fin 128} {stat : Vector Nat 128}
    (hkeep : c.scr ≠ .auto → scr = c.scr ∧ guess = c.scrGuess ∧ stat = c.scrStat)
    (hclear : scr ≠ c.scr → stat = zeroScores) :
    { c.afterUnit t e with
      scr := scr, scrGuess := guess, scrStat := stat, frameNo := nextFrameNo c.frameNo c.frameNo }.Inv where
  buffer_le := h.drop_le 160
  last_le := he
  total_mem := ht
  total_lt _ := hlt
  frameNo_unknown := by simp only [h.frameNo_unknown, nextFrameNo]
  scores_zero hscr := by
    by_cases ha : c.scr = .auto
    · exact hclear fun heq => hscr (heq.trans ha)
    · obtain ⟨-, -, hstat⟩ := hkeep ha
      exact hstat.trans (h.scores_zero ha)

/-! ## PROCESS on the instance -/

/-- The loop of PROCESS, from a Synced instance that meets the invariant, answers one that meets it. -/
theorem drain_inv (P : Config.Params) (n : Nat) {c : Channel} (h : c.Inv) (hs : c.syncState = .synced) (st : Status)
    (es : List Event) : ∃ c' st' es', drain P n c st es = .ok (c', st', es') ∧ c'.Inv := by
  induction n generalizing c st es with
  | zero => exact ⟨c, st, es, rfl, h⟩
  | succ n ih =>
    rcases drain_step P n c st es with
      ⟨-, -, hd⟩ | ⟨-, -, -, -, hd⟩ | ⟨-, t, scr, guess, stat, hbad, hgood, -, -, hkeep, hclear, hd⟩
    · exact ⟨_, _, _, hd, h⟩
    · exact ⟨_, _, _, hd, h.lost hs⟩
    · have ht : t ∈ reachableTotals ∧ t < 160 := by
        by_cases hm : markerErrors c.buffer 0 + c.lastSyncErr ≤ 1
        · rw [hgood hm]; decide
        · obtain ⟨rfl, hlt⟩ := hbad (by omega)
          exact ⟨escalate_mem_reachableTotals _ h.total_mem (h.total_lt hs), hlt⟩
      rw [hd]
      exact ih (h.afterFrame ht.1 ht.2 (markerErrors_le _ _) hkeep hclear) hs _ _

/-- PROCESS answers on every instance that meets the invariant, and leaves one that meets it (R180). -/
theorem process_inv (P : Config.Params) {c : Channel} (h : c.Inv) :
    ∃ c' st es, process P c = .ok (c', st, es) ∧ c'.Inv := by
  cases hs : c.syncState with
  | synced =>
    simp only [process, hs]
    exact drain_inv P _ h hs _ _
  | notSynced =>
    rcases syncAcq_spec c with ⟨o, -, -, -, hacq⟩ | ⟨-, hacq⟩
    · simp only [process, hs, hacq]
      exact drain_inv P _ (h.synchronized o) rfl _ _
    · exact ⟨_, .idle, [], by simp only [process, hs, hacq], h.setBuffer (h.drop_le (c.buffer.length - 167))⟩

/-! ## The invariant of the state, through its updates -/

theorem State.Inv.answer {s : State} (h : s.Inv) (r : Option Result) (es : List Event) : (s.answer r es).Inv :=
  { h with }

theorem State.Inv.takeWord {s : State} (h : s.Inv) : s.takeWord.Inv := { h with }

theorem State.Inv.setSymIn {s : State} (h : s.Inv) (l : List Symbol) : { s with symIn := l }.Inv := { h with }

theorem State.Inv.setInst {s : State} (h : s.Inv) {c : Channel} (hc : c.Inv) : (s.setInst c).Inv :=
  { h with
    channel := by
      intro c' hc'
      obtain rfl := Option.some.inj hc'
      exact hc }

theorem State.Inv.clearFrames {s : State} (h : s.Inv) : ((s.setFrame none).setDecoded none).Inv :=
  { h with no_frame := rfl, no_decoded := rfl }

/-! ## The invariant through the ways an operation answers -/

/-- Whatever state the outcome holds meets the invariant. -/
def NextInv (o : Host.Outcome State Fault Refusal) : Prop := ∀ t, o = .next t → t.Inv

theorem nextInv_next {s : State} (h : s.Inv) : NextInv (.next s) := by
  rintro t ⟨⟩
  exact h

theorem nextInv_refused (r : Refusal) : NextInv (.refused r) := by
  intro t ht
  cases ht

theorem nextInv_reject {s : State} (h : s.Inv) (k : ErrorKind) : NextInv (reject s k) := nextInv_next (h.answer _ _)

theorem nextInv_withChannel {s : State} (h : s.Inv) {f : Channel → Host.Outcome State Fault Refusal}
    (hf : ∀ c, c.Inv → NextInv (f c)) : NextInv (withChannel s f) := by
  cases hc : s.inst with
  | none => rw [withChannel_none hc]; exact nextInv_reject h _
  | some c => rw [withChannel_some hc]; exact hf c (h.channel c hc)

theorem nextInv_withZeroArg {s : State} (h : s.Inv) (arg : Arg) {k : Host.Outcome State Fault Refusal}
    (hk : NextInv k) : NextInv (withZeroArg s arg k) := by
  by_cases ha : arg = 0
  · subst ha
    rw [BitVec.ofNat_eq_ofNat, withZeroArg_zero]
    exact hk
  · rw [withZeroArg_ne ha]
    exact nextInv_reject h _

/-! ## The host operations -/

theorem execCreate_nextInv {s : State} (h : s.Inv) (rsv : BitVec 7) (kind band : BitVec 2) :
    NextInv (execCreate rsv kind band s) := by
  unfold execCreate
  split
  · exact nextInv_reject h _
  · exact nextInv_next ((h.setInst (freshChannel_inv _ _)).clearFrames.answer _ _)

theorem execFeed_nextInv {s : State} (h : s.Inv) (n : Nat) : NextInv (execFeed n s) := by
  refine nextInv_withChannel (h.setSymIn _) fun c hc => ?_
  split
  · exact nextInv_refused _
  · exact nextInv_next (((h.setSymIn _).setInst
      (hc.setBuffer (length_bufAppend_admitted_le hc.buffer_le _ _))).answer _ _)

theorem execProcess_nextInv {s : State} (h : s.Inv) (arg : Arg) : NextInv (execProcess arg s) := by
  refine nextInv_withChannel h fun c hc => nextInv_withZeroArg h arg ?_
  obtain ⟨c', st, es, hp, hc'⟩ := process_inv Config.params hc
  rw [hp]
  exact nextInv_next ((h.setInst hc').clearFrames.answer _ _)

theorem execSetScr_nextInv {s : State} (h : s.Inv) (rsv : BitVec 3) (auto : Bool) (v : Nat) :
    NextInv (execSetScr rsv auto v s) := by
  refine nextInv_withChannel h fun c hc => ?_
  split
  · exact nextInv_next ((h.setInst (hc.writeScr _)).answer _ _)
  · exact nextInv_reject h _

/-- From the owner every internal operation is refused as BadOperation (R80). -/
theorem exec_internal_of_owner {s : State} {i : Instr} (hi : i.isInternal = true) (ho : s.issuer = .owner) :
    exec i s = reject s .badOperation := by
  cases i with
  | create | feed | process | getScr | setScr | getScrConfidence | setScrConfidence => cases hi
  | _ => exact asInternal_owner ho _ _

/-- Every operation keeps the invariant: the seven host operations by what they write, the internal ones because the
owner presents them. -/
theorem exec_nextInv {s : State} (h : s.Inv) (i : Instr) : NextInv (exec i s) := by
  cases i with
  | create rsv kind band => exact execCreate_nextInv h rsv kind band
  | feed n => exact execFeed_nextInv h n
  | process arg => exact execProcess_nextInv h arg
  | getScr arg =>
    exact nextInv_withChannel h fun _ _ => nextInv_withZeroArg h arg (nextInv_next (h.answer _ _))
  | setScr rsv auto v => exact execSetScr_nextInv h rsv auto v
  | getScrConfidence arg =>
    exact nextInv_withChannel h fun _ _ => nextInv_withZeroArg h arg (nextInv_next (h.answer _ _))
  | setScrConfidence n =>
    exact nextInv_withChannel h fun _ hc => nextInv_next ((h.setInst (hc.setConfidence n)).answer _ _)
  | _ =>
    rw [exec_internal_of_owner rfl h.issuer_owner]
    exact nextInv_reject h _

/-- Every word keeps the invariant, the reserved ones by changing nothing (R80). -/
theorem runWord_nextInv {s : State} (h : s.Inv) (w : OpWord) : NextInv (runWord w s) := by
  unfold runWord
  split
  · exact exec_nextInv h _
  · exact nextInv_reject h _

theorem step_nextInv {s : State} (h : s.Inv) : NextInv (step s) := by
  unfold step
  split
  · exact nextInv_next h
  · exact runWord_nextInv h.takeWord _

/-- Settles O9: taking a word keeps the invariant, and so does every operation the word can name. -/
theorem stepKeepsTheInvariant : Obligations.StepKeepsTheInvariant := by
  intro s t h hstep
  exact step_nextInv h t hstep

end Sys2Proof.Machine
end

section
/-! # Proofs of family 20_memory: where a step can stop

The buffer is the block's only memory. MARKER_CMP run alone outside it is the one fault; from a good state nothing
stops but a FEED without its symbols. The second claim goes through the ways an operation answers, then the host
operations, `exec` and `step`. -/

namespace Sys2Proof.Machine

/-! ## MARKER_CMP outside the buffer -/

/-- MARKER_CMP presented by the block stops with whatever fault its read of the buffer raises (R52, R100). -/
theorem exec_markerCmp_of_error {s : State} {c : Channel} {e : Fault} (hb : s.issuer = .block)
    (hc : s.inst = some c) (he : markerCmp c.buffer s.opP = .error e) : exec (.markerCmp 0) s = .fault e := by
  refine (asInternal_block hb hc _).trans ?_
  simp only [he]

/-- Settles O25: the seventh marker position is not below BufLen, so the read has no value. -/
theorem markerCmpStopsOutsideTheBuffer : Obligations.MarkerCmpStopsOutsideTheBuffer := by
  intro s c hb hc hlen
  exact exec_markerCmp_of_error hb hc (markerCmp_of_le hlen)

/-! ## The ways an operation answers -/

theorem answers_next (s : State) : Answers (.next s) := ⟨s, rfl⟩

/-- An error kind is a result value, never a stop (R200). -/
theorem answers_reject (s : State) (k : ErrorKind) : Answers (reject s k) := answers_next _

theorem answers_withChannel {s : State} {f : Channel → Host.Outcome State Fault Refusal}
    (hf : ∀ c, s.inst = some c → Answers (f c)) : Answers (withChannel s f) := by
  cases hc : s.inst with
  | none => rw [withChannel_none hc]; exact answers_reject s _
  | some c => rw [withChannel_some hc]; exact hf c hc

theorem answers_withZeroArg (s : State) (arg : Arg) {k : Host.Outcome State Fault Refusal} (hk : Answers k) :
    Answers (withZeroArg s arg k) := by
  unfold withZeroArg
  split
  · exact hk
  · exact answers_reject s _

/-! ## The operations -/

theorem execCreate_answers (rsv : BitVec 7) (kind band : BitVec 2) (s : State) :
    Answers (execCreate rsv kind band s) := by
  unfold execCreate
  split
  · exact answers_reject s _
  · exact answers_next _

/-- FEED answers once its symbols are there (R76, R182). -/
theorem execFeed_answers {n : Nat} {s : State} (hn : n ≤ s.symIn.length) : Answers (execFeed n s) := by
  refine answers_withChannel fun c _ => ?_
  rw [if_neg (Nat.not_lt.mpr hn)]
  exact answers_next _

/-- PROCESS never reads outside the buffer of a good instance (R64). -/
theorem execProcess_answers {s : State} (h : s.Inv) (arg : Arg) : Answers (execProcess arg s) := by
  refine answers_withChannel fun c hc => answers_withZeroArg s arg ?_
  obtain ⟨c', st, es, hp, -⟩ := process_inv Config.params (h.channel c hc)
  rw [hp]
  exact answers_next _

theorem execSetScr_answers (rsv : BitVec 3) (auto : Bool) (v : Nat) (s : State) :
    Answers (execSetScr rsv auto v s) := by
  refine answers_withChannel fun c _ => ?_
  split
  · exact answers_next _
  · exact answers_reject s _

/-- In a good state every operation answers, FEED if its symbols are there: PROCESS because its reads stay inside the
buffer, the internal operations because the owner presents them (R80). -/
theorem exec_answers {s : State} (h : s.Inv) {i : Instr} (hfeed : ∀ n, i = .feed n → n ≤ s.symIn.length) :
    Answers (exec i s) := by
  cases i with
  | create rsv kind band => exact execCreate_answers rsv kind band s
  | feed n => exact execFeed_answers (hfeed n rfl)
  | process arg => exact execProcess_answers h arg
  | getScr arg => exact answers_withChannel fun _ _ => answers_withZeroArg s arg (answers_next _)
  | setScr rsv auto v => exact execSetScr_answers rsv auto v s
  | getScrConfidence arg => exact answers_withChannel fun _ _ => answers_withZeroArg s arg (answers_next _)
  | setScrConfidence n => exact answers_withChannel fun _ _ => answers_next _
  | _ =>
    rw [exec_internal_of_owner rfl h.issuer_owner]
    exact answers_reject s _

/-- A word that names no operation is answered too, as BadOperation (R80). -/
theorem runWord_answers {s : State} (h : s.Inv) {w : OpWord}
    (hfeed : ∀ n, decode w = .ok (.feed n) → n ≤ s.symIn.length) : Answers (runWord w s) := by
  unfold runWord
  split
  next i hi => exact exec_answers h fun n hn => hfeed n (hn ▸ hi)
  next => exact answers_reject s _

/-- Settles O10: taking the word keeps the invariant and the symbol input, and what it names answers. -/
theorem goodStatesNeverStop : Obligations.GoodStatesNeverStop := by
  intro s h hfeed
  unfold step
  split
  next => exact answers_next s
  next w rest hop => exact runWord_answers h.takeWord fun n hn => hfeed w rest n hop hn

end Sys2Proof.Machine
end

section
/-! # Proofs of family 30_encoding: the operation word, the codes, and the words that are refused

First the word: how each packed `arg` gives its operands back and how they give it back, then `decode` against `encode`
in both directions. Then the codes of R75, the refusals of R80 and of the model's own choices, and the pseudo-operations
of R82. -/

namespace Sys2Proof

/-! ## The packed fields of an `arg` (R77, R79) -/

theorem extractLsb'_create_rsv (rsv : BitVec 7) (kind band : BitVec 2) :
    (rsv ++ kind ++ band).extractLsb' 4 7 = rsv := by
  rw [BitVec.extractLsb'_append_eq_of_le (by decide)]
  exact BitVec.extractLsb'_append_eq_left

theorem extractLsb'_create_kind (rsv : BitVec 7) (kind band : BitVec 2) :
    (rsv ++ kind ++ band).extractLsb' 2 2 = kind := by
  rw [BitVec.extractLsb'_append_eq_of_le (by decide)]
  exact BitVec.extractLsb'_append_eq_right

/-- The operands of CREATE, put together again, are its `arg`. -/
theorem arg_create_fields (a : Arg) :
    (Instr.create (a.extractLsb' 4 7) (a.extractLsb' 2 2) (a.extractLsb' 0 2)).arg = a := by
  rw [Instr.arg, BitVec.extractLsb'_append_extractLsb'_eq_extractLsb' (show 4 = 2 + 2 from rfl),
    BitVec.extractLsb'_append_extractLsb'_eq_extractLsb' (show 2 = 0 + 2 from rfl)]
  exact BitVec.extractLsb'_eq_self

theorem extractLsb'_setScr_rsv (rsv : BitVec 3) (auto : Bool) (v : BitVec 7) :
    (rsv ++ (BitVec.ofBool auto ++ v)).extractLsb' 8 3 = rsv :=
  BitVec.extractLsb'_append_eq_left

theorem getLsbD_setScr_auto (rsv : BitVec 3) (auto : Bool) (v : BitVec 7) :
    (rsv ++ (BitVec.ofBool auto ++ v)).getLsbD 7 = auto := by
  rw [BitVec.getLsbD_append, if_pos (by decide), BitVec.getLsbD_append, if_neg (by decide)]
  simp

theorem extractLsb'_setScr_value (rsv : BitVec 3) (auto : Bool) (v : BitVec 7) :
    (rsv ++ (BitVec.ofBool auto ++ v)).extractLsb' 0 7 = v := by
  rw [BitVec.extractLsb'_append_eq_of_add_le (by decide)]
  exact BitVec.extractLsb'_append_eq_right

/-- A field read as a number and written again (R79). -/
theorem ofNat_toNat_same {n : Nat} (x : BitVec n) : BitVec.ofNat n x.toNat = x := by
  rw [BitVec.ofNat_toNat, BitVec.setWidth_eq]

/-- A number that fits its field is not truncated (R79). -/
theorem toNat_ofNat_of_fits {n v : Nat} (h : v < 2 ^ n) : (BitVec.ofNat n v).toNat = v := by
  rw [BitVec.toNat_ofNat, Nat.mod_eq_of_lt h]

/-- One bit as a field of width 1. -/
theorem ofBool_getLsbD {n : Nat} (x : BitVec n) (k : Nat) : BitVec.ofBool (x.getLsbD k) = x.extractLsb' k 1 := by
  apply BitVec.eq_of_getLsbD_eq
  intro i hi
  obtain rfl : i = 0 := by omega
  simp

/-- The operands of SET_SCR, put together again, are its `arg`. -/
theorem arg_setScr_fields (a : Arg) :
    (Instr.setScr (a.extractLsb' 8 3) (a.getLsbD 7) (a.extractLsb' 0 7).toNat).arg = a := by
  rw [Instr.arg, ofBool_getLsbD, ofNat_toNat_same,
    BitVec.extractLsb'_append_extractLsb'_eq_extractLsb' (show 7 = 0 + 7 from rfl),
    BitVec.extractLsb'_append_extractLsb'_eq_extractLsb' (show 8 = 0 + (1 + 7) from rfl)]
  exact BitVec.extractLsb'_eq_self

/-! ## Decoding what was encoded -/

/-- Settles O4: `opField` and `argField` give the two parts of the word back; then each packed operand is its field, and
a natural operand that fits its field is not truncated. -/
theorem decodeOfEncode : Obligations.DecodeOfEncode := by
  intro i hfits
  rw [encode, decode, opField_opWord, argField_opWord]
  cases i with
  | create rsv kind band =>
    simp only [Instr.op, Instr.arg, BitVec.reduceToNat, extractLsb'_create_rsv, extractLsb'_create_kind,
      BitVec.extractLsb'_append_eq_right]
  | feed n =>
    have hn : n < 2048 := of_decide_eq_true hfits
    exact congrArg (Except.ok ∘ Instr.feed) (toNat_ofNat_of_fits hn)
  | setScr rsv auto v =>
    have hv : v < 128 := of_decide_eq_true hfits
    simp only [Instr.op, Instr.arg, BitVec.reduceToNat, extractLsb'_setScr_rsv, getLsbD_setScr_auto,
      extractLsb'_setScr_value, toNat_ofNat_of_fits (n := 7) hv]
  | setScrConfidence n =>
    have hn : n < 2048 := of_decide_eq_true hfits
    exact congrArg (Except.ok ∘ Instr.setScrConfidence) (toNat_ofNat_of_fits hn)
  | _ => rfl

/-! ## Encoding what was decoded -/

/-- What the decoder can read: an operation with the `op` and the `arg` of the word, whose operands fit. CREATE, FEED,
SET_SCR and SET_SCR_CONFIDENCE pack their operands; every other operation keeps its `arg` as it is. -/
theorem fields_of_decode {w : OpWord} {i : Instr} (h : decode w = .ok i) :
    i.op = opField w ∧ i.arg = argField w ∧ i.fits = true := by
  unfold decode at h
  split at h
  case h_1 hop =>
    cases h
    exact ⟨BitVec.eq_of_toNat_eq hop.symm, arg_create_fields _, rfl⟩
  case h_2 hop | h_7 hop =>
    cases h
    exact ⟨BitVec.eq_of_toNat_eq hop.symm, ofNat_toNat_same _, decide_eq_true (argField w).isLt⟩
  case h_5 hop =>
    cases h
    exact ⟨BitVec.eq_of_toNat_eq hop.symm, arg_setScr_fields _, decide_eq_true ((argField w).extractLsb' 0 7).isLt⟩
  case h_20 => cases h
  all_goals
    rename_i hop
    cases h
    exact ⟨BitVec.eq_of_toNat_eq hop.symm, rfl, rfl⟩

/-- Settles O5: the word of the operation read has both fields of the word it was read from. -/
theorem encodeOfDecode : Obligations.EncodeOfDecode := by
  intro w i h
  obtain ⟨hop, harg, hfits⟩ := fields_of_decode h
  refine ⟨hfits, ?_⟩
  rw [encode, hop, harg, opWord_fields]

/-! ## The reserved `op` values (R80) -/

/-- `op` is what stands above the 11 bits of `arg` (R76). -/
theorem toNat_opField (w : OpWord) : (opField w).toNat = w.toNat / 2048 := by
  have hw : w.toNat / 2048 < 32 := by omega
  rw [opField, BitVec.extractLsb'_toNat, Nat.shiftRight_eq_div_pow]
  exact Nat.mod_eq_of_lt hw

theorem decode_of_reserved {w : OpWord}
    (h : w.toNat / 2048 = 0 ∨ (8 ≤ w.toNat / 2048 ∧ w.toNat / 2048 ≤ 15) ∨ 28 ≤ w.toNat / 2048) :
    decode w = .error (.reservedOp (opField w)) := by
  rw [← toNat_opField] at h
  unfold decode
  split
  case h_20 => rfl
  all_goals omega

end Sys2Proof

namespace Sys2Proof.Machine

/-- A step takes the first word and runs it (R61). -/
theorem step_cons {s : State} {w : OpWord} {rest : List OpWord} (h : s.opIn = w :: rest) :
    step s = runWord w { s with opIn := rest } := by
  simp only [step, State.takeWord, h, List.tail_cons]

/-- Settles O2: such a word names no operation, and running it only answers. -/
theorem reservedOpAnswersBadOperation : Obligations.ReservedOpAnswersBadOperation := by
  intro s w rest hop hreserved
  rw [step_cons hop, runWord, decode_of_reserved hreserved]
  rfl

/-! ## The codes (R75, R78) -/

theorem bandOfCode_code (b : Band) : bandOfCode b.code = some b := by
  cases b <;> rfl

theorem channelKindOfCode_code (k : ChannelKind) : channelKindOfCode k.code = some k := by
  cases k <;> rfl

theorem toNat_bits_known_scr (v : Fin 128) : (Scr.known v).bits.toNat = v.val :=
  toNat_ofNat_of_fits (by omega)

theorem toNat_bits_known_frameNo (n : Fin 200) : (FrameNo.known n).bits.toNat = 256 + n.val :=
  toNat_ofNat_of_fits (by omega)

/-- Settles O7: every value is named back by its code or its bits, and the single codes are R75's table. -/
theorem enumerationCodes : Obligations.EnumerationCodes :=
  ⟨bandOfCode_code, rfl, rfl, rfl, rfl, channelKindOfCode_code, rfl, rfl, rfl, rfl, rfl, rfl, rfl, rfl, rfl,
    toNat_bits_known_scr, rfl, toNat_bits_known_frameNo, rfl, errorCode_none⟩

/-! ## FEED -/

/-- Settles O15: the instance is there, and the check of the symbols fails (R76, D24). -/
theorem feedWithoutItsSymbolsIsRefused : Obligations.FeedWithoutItsSymbolsIsRefused := by
  intro s c n hc hshort
  exact (withChannel_some (s := { s with symIn := s.symIn.drop n }) hc _).trans (if_pos hshort)

/-- FEED with its symbols there, as a whole next state (R182). -/
theorem exec_feed {s : State} {c : Channel} {n : Nat} (hc : s.inst = some c) (hn : n ≤ s.symIn.length) :
    exec (.feed n) s = .next { s with
      inst := some { c with buffer := c.buffer ++ (s.symIn.take n).take (admitted c.buffer n) },
      symIn := s.symIn.drop n, result := some (.consumed (admitted c.buffer n)), events := [] } :=
  (withChannel_some (s := { s with symIn := s.symIn.drop n }) hc _).trans (if_neg (Nat.not_lt.mpr hn))

/-! ## Words that break their layout -/

/-- A nonzero `arg` where it must be zero, once the instance is there (R80). -/
theorem withChannel_withZeroArg_ne {s : State} {c : Channel} {arg : Arg} (hc : s.inst = some c) (ha : arg ≠ 0)
    (k : Channel → Host.Outcome State Fault Refusal) :
    withChannel s (fun c => withZeroArg s arg (k c)) = reject s .badOperand :=
  (withChannel_some hc _).trans (withZeroArg_ne ha _)

/-- Settles O18: each of the three checks its `arg` before it does anything else. -/
theorem nonzeroArgIsBadOperand : Obligations.NonzeroArgIsBadOperand := by
  intro s c arg hc ha i hi
  simp only [List.mem_cons, List.not_mem_nil, or_false] at hi
  rcases hi with rfl | rfl | rfl
  all_goals exact withChannel_withZeroArg_ne hc ha _

/-! ## Internal operations outside PROCESS -/

/-- Settles O20: the check of the issuer comes before every other (R80, R215). -/
theorem ownerCannotIssueInternalOperations : Obligations.OwnerCannotIssueInternalOperations := by
  intro s i hi ho
  exact exec_internal_of_owner hi ho

/-- Every internal operation is its effect behind the one check `asInternal`. -/
theorem exec_internal {i : Instr} (hi : i.isInternal = true) (s : State) :
    ∃ f, exec i s = asInternal s i.arg f := by
  cases i with
  | create | feed | process | getScr | setScr | getScrConfidence | setScrConfidence => cases hi
  | _ => exact ⟨_, rfl⟩

theorem asInternal_arg_ne {arg : Arg} (ha : arg ≠ 0) (s : State) (f : Channel → Host.Outcome State Fault Refusal) :
    asInternal s arg f = reject s .badOperation :=
  if_neg fun h => ha h.2

theorem asInternal_absent {s : State} (hb : s.issuer = .block) (hc : s.inst = none)
    (f : Channel → Host.Outcome State Fault Refusal) : asInternal s 0 f = reject s .noInstance :=
  (if_pos ⟨hb, rfl⟩).trans (withChannel_none hc f)

/-- Settles O21: `asInternal` refuses a nonzero `arg`, and after it a missing instance. -/
theorem internalOperationsOutsideTheirDomain : Obligations.InternalOperationsOutsideTheirDomain := by
  intro s i hi hb
  obtain ⟨f, hexec⟩ := exec_internal hi s
  rw [hexec]
  constructor
  · intro ha
    exact asInternal_arg_ne ha s f
  · intro ha hc
    rw [ha]
    exact asInternal_absent hb hc f

/-! ## The pseudo-operations (R82) -/

/-- SET_SCR of a setting writes that setting (R184). -/
theorem exec_setScrOp {s : State} {c : Channel} (hc : s.inst = some c) (v : Scr) :
    exec (setScrOp v) s = .next { s with inst := some (c.writeScr v), result := some .ok, events := [] } := by
  cases v with
  | auto => exact withChannel_some hc _
  | known v =>
    refine (withChannel_some hc _).trans ?_
    rw [show scrOperand 0 false v.val = some (.known v) from dif_pos v.isLt]
    rfl

/-- Writing the setting of a fresh instance changes nothing else: its scores are 0 already (R40). -/
theorem writeScr_freshChannel (b : Band) (k : ChannelKind) (v : Scr) :
    (freshChannel b k).writeScr v = { freshChannel b k with scr := v } := rfl

theorem length_flatten_replicate (n : Nat) (bits : List Symbol) :
    (List.replicate n bits).flatten.length = n * bits.length := by
  rw [List.length_flatten, List.map_replicate, List.sum_replicate, smul_eq_mul]

/-- An empty buffer admits every sequence within the capacity (R182). -/
theorem admitted_nil {n : Nat} (h : n ≤ bufCap) : admitted [] n = n :=
  Nat.min_eq_left h

/-- FEED_REP into an empty buffer: its FEED has exactly its symbols, and all of them are admitted. -/
theorem exec_feedRep {s : State} {c : Channel} (hc : s.inst = some c) (hempty : c.buffer = []) {n : Nat}
    {bits : List Symbol} (h : n * bits.length ≤ bufCap) (hsym : s.symIn = (feedRep n bits).2) :
    exec (feedRep n bits).1 s = .next { s with
      inst := some { c with buffer := (List.replicate n bits).flatten }, symIn := [],
      result := some (.consumed (n * bits.length)), events := [] } := by
  have hlen : s.symIn.length = n * bits.length := by rw [hsym]; exact length_flatten_replicate n bits
  have htake : (s.symIn.take (n * bits.length)).take (n * bits.length) = s.symIn := by
    rw [← hlen, List.take_length, List.take_length]
  rw [feedRep, exec_feed hc hlen.ge, hempty, admitted_nil h, htake, List.drop_of_length_le hlen.le, hsym]
  rfl

/-- Settles O23: CREATE, SET_SCR and FEED one after the other, each by its next state. -/
theorem pseudoOperationsExpand : Obligations.PseudoOperationsExpand := by
  intro s b k v n bits hfit
  refine ⟨_, _, _, _, _, rfl, exec_create_of_ok (createOperands_code b k) s, exec_setScrOp rfl v, ?_,
    exec_feedRep rfl rfl hfit rfl, ?_⟩
  · exact congrArg some (writeScr_freshChannel b k v)
  · rw [writeScr_freshChannel]

end Sys2Proof.Machine
end

section
/-! # Proofs of family 41_frame_sync: MARKER_CMP and SYNC_ACQ

Each operation's answer is lifted from its pure function to the whole next state. SYNC_ACQ's function is then settled
for a given earliest pair, and for none. -/

namespace Sys2Proof.Machine

/-! ## MARKER_CMP -/

/-- MARKER_CMP presented by the block returns the count and writes nothing else (R100). -/
theorem exec_markerCmp_of_ok {s : State} {c : Channel} {e : Nat} (hb : s.issuer = .block)
    (hc : s.inst = some c) (he : markerCmp c.buffer s.opP = .ok e) :
    exec (.markerCmp 0) s = .next { s with result := some (.mismatches e), events := [] } := by
  refine (asInternal_block hb hc _).trans ?_
  simp only [he, State.answer]

/-- Settles O24: the seven reads stay inside the buffer, and what they count is the sum of R100. -/
theorem markerCmpCountsMismatches : Obligations.MarkerCmpCountsMismatches := by
  intro s c hb hc hlen
  exact ⟨markerErrors_le c.buffer s.opP, exec_markerCmp_of_ok hb hc (markerCmp_of_lt hlen)⟩

/-! ## SYNC_ACQ -/

/-- SYNC_ACQ presented by the block leaves the instance its function answers, and writes nothing else (R101). -/
theorem exec_syncAcq_of_ok {s : State} {c c' : Channel} {r : SyncResult} (hb : s.issuer = .block)
    (hc : s.inst = some c) (hr : syncAcq c = .ok (c', r)) :
    exec (.syncAcq 0) s = .next { s with inst := some c', result := some (.sync r), events := [] } := by
  refine (asInternal_block hb hc _).trans ?_
  simp only [hr, State.setInst, State.answer]

/-- There is only one earliest pair: of two of them, neither comes before the other. -/
theorem earliest_pair_unique {b : List Symbol} {o k : Nat} (ho : pairErrors b o ≤ 1) (hk : pairErrors b k ≤ 1)
    (hbefore : ∀ j, j < o → 1 < pairErrors b j) (kbefore : ∀ j, j < k → 1 < pairErrors b j) : k = o := by
  rcases lt_trichotomy k o with hlt | heq | hgt
  · exact absurd (hbefore k hlt) hk.not_gt
  · exact heq
  · exact absurd (kbefore o hgt) ho.not_gt

/-- The pair SYNC_ACQ finds is the earliest one in the buffer (R101, R102). -/
theorem syncAcq_of_earliest {c : Channel} {o : Nat} (hlen : o + 168 ≤ c.buffer.length)
    (ho : pairErrors c.buffer o ≤ 1) (hbefore : ∀ j, j < o → 1 < pairErrors c.buffer j) :
    syncAcq c = .ok ({ c with buffer := c.buffer.drop o, lastSyncErr := 0, totalSyncErr := 0 }, .found) := by
  rcases syncAcq_spec c with ⟨k, -, hk, kbefore, hacq⟩ | ⟨hnone, -⟩
  · obtain rfl := earliest_pair_unique ho hk hbefore kbefore
    exact hacq
  · exact absurd (hnone o hlen) ho.not_gt

/-- Without a pair SYNC_ACQ keeps the last 167 symbols (R101). -/
theorem syncAcq_of_none {c : Channel} (hnone : ∀ o, o + 168 ≤ c.buffer.length → 1 < pairErrors c.buffer o) :
    syncAcq c = .ok ({ c with buffer := c.buffer.drop (c.buffer.length - 167) }, .notFound) := by
  rcases syncAcq_spec c with ⟨k, hlen, hk, -, -⟩ | ⟨-, hacq⟩
  · exact absurd (hnone k hlen) hk.not_gt
  · exact hacq

/-- Settles O26: the buffer holds an earliest pair or none, and each way the answer is that instance. -/
theorem syncAcqFindsTheEarliestPair : Obligations.SyncAcqFindsTheEarliestPair := by
  intro s c hb hc
  constructor
  · intro o hlen ho hbefore
    exact exec_syncAcq_of_ok hb hc (syncAcq_of_earliest hlen ho hbefore)
  · intro hnone
    exact exec_syncAcq_of_ok hb hc (syncAcq_of_none hnone)

end Sys2Proof.Machine
end

section
/-! # Proofs of family 42_frame_extraction: EXTRACT and DIFFDEC1

EXTRACT's function is settled for each of its four cases and lifted to the whole next state; the sequence of R113 is
the third case up to a counter of 63 and the fourth from 127 on. DIFFDEC1 is settled symbol by symbol. -/

namespace Sys2Proof.Machine

/-! ## EXTRACT, case by case (R110) -/

theorem extract_of_short {c : Channel} (hlen : c.buffer.length < 160) : extract c = .ok (c, .noFrameYet) := by
  rcases extract_spec c with ⟨-, h⟩ | ⟨hl, -⟩ | ⟨hl, -⟩ | ⟨hl, -⟩
  · exact h
  all_goals exact absurd hlen hl.not_gt

theorem extract_of_good {c : Channel} (hlen : 160 ≤ c.buffer.length)
    (hgood : markerErrors c.buffer 0 + c.lastSyncErr ≤ 1) :
    extract c = .ok (c.afterUnit 0 (markerErrors c.buffer 0), .frame (frontFrame c)) := by
  rcases extract_spec c with ⟨hshort, -⟩ | ⟨-, -, h⟩ | ⟨-, hbad, -⟩ | ⟨-, hbad, -⟩
  · exact absurd hlen hshort.not_ge
  · exact h
  all_goals exact absurd hgood hbad.not_ge

theorem extract_of_tolerated {c : Channel} (hlen : 160 ≤ c.buffer.length)
    (hbad : 1 < markerErrors c.buffer 0 + c.lastSyncErr) (htotal : 1 + 2 * c.totalSyncErr < 160) :
    extract c =
      .ok (c.afterUnit (1 + 2 * c.totalSyncErr) (markerErrors c.buffer 0), .frame (frontFrame c)) := by
  rcases extract_spec c with ⟨hshort, -⟩ | ⟨-, hgood, -⟩ | ⟨-, -, -, h⟩ | ⟨-, -, hlost, -⟩
  · exact absurd hlen hshort.not_ge
  · exact absurd hgood hbad.not_ge
  · exact h
  · exact absurd htotal hlost.not_gt

theorem extract_of_lost {c : Channel} (hlen : 160 ≤ c.buffer.length)
    (hbad : 1 < markerErrors c.buffer 0 + c.lastSyncErr) (htotal : 160 ≤ 1 + 2 * c.totalSyncErr) :
    extract c = .ok ({ c with totalSyncErr := 1 + 2 * c.totalSyncErr }, .syncLost) := by
  rcases extract_spec c with ⟨hshort, -⟩ | ⟨-, hgood, -⟩ | ⟨-, -, hkept, -⟩ | ⟨-, -, -, h⟩
  · exact absurd hlen hshort.not_ge
  · exact absurd hgood hbad.not_ge
  · exact absurd htotal hkept.not_ge
  · exact h

/-! ## EXTRACT presented by the block -/

/-- An instance that EXTRACT hands back unchanged is the one that is there. -/
theorem exec_extract_of_noFrameYet {s : State} {c : Channel} (hb : s.issuer = .block) (hc : s.inst = some c)
    (h : extract c = .ok (c, .noFrameYet)) :
    exec (.extract 0) s = .next { s with result := some (.extract .noFrameYet), events := [] } := by
  refine (asInternal_block hb hc _).trans ?_
  simp only [h, State.setInst, State.answer, ← hc]

theorem exec_extract_of_syncLost {s : State} {c c' : Channel} (hb : s.issuer = .block) (hc : s.inst = some c)
    (h : extract c = .ok (c', .syncLost)) :
    exec (.extract 0) s =
      .next { s with inst := some c', result := some (.extract .syncLost), events := [] } := by
  refine (asInternal_block hb hc _).trans ?_
  simp only [h, State.setInst, State.answer]

/-- The Frame goes to `FR` and is the answer as well (R33, R110). -/
theorem exec_extract_of_frame {s : State} {c c' : Channel} {f : Frame} (hb : s.issuer = .block)
    (hc : s.inst = some c) (h : extract c = .ok (c', .frame f)) :
    exec (.extract 0) s =
      .next { s with inst := some c', fr := some f, result := some (.extract (.frame f)), events := [] } := by
  refine (asInternal_block hb hc _).trans ?_
  simp only [h, State.setInst, State.setFrame, State.answer]

/-- Settles O27: the length, the marker errors and the escalated counter pick the case, and each case is lifted. -/
theorem extractFollowsTheEscalationPolicy : Obligations.ExtractFollowsTheEscalationPolicy := by
  intro s c hb hc
  refine ⟨fun hshort => ?_, fun hlen => ⟨fun hgood => ?_, fun hbad htotal => ?_, fun hbad htotal => ?_⟩⟩
  · exact exec_extract_of_noFrameYet hb hc (extract_of_short hshort)
  · exact exec_extract_of_frame hb hc (extract_of_good hlen hgood)
  · exact exec_extract_of_frame hb hc (extract_of_tolerated hlen hbad htotal)
  · exact exec_extract_of_syncLost hb hc (extract_of_lost hlen hbad htotal)

/-! ## The eighth bad frame (R113) -/

/-- The escalation sends `2^n - 1` to the next such number. -/
theorem escalate_two_pow_sub_one (n : Nat) : 1 + 2 * (2 ^ n - 1) = 2 ^ (n + 1) - 1 := by
  have hpos : 0 < 2 ^ n := Nat.two_pow_pos n
  rw [Nat.pow_succ]
  omega

/-- Up to the seventh bad frame the counter stays below the 160 of R110. -/
theorem two_pow_sub_one_lt_frameLen {n : Nat} (hn : n < 7) : 2 ^ (n + 1) - 1 < 160 := by
  have hpow : 2 ^ (n + 1) ≤ 2 ^ 7 := Nat.pow_le_pow_right (by decide) hn
  omega

/-- Settles O28: for n up to 6 the escalated counter is below 160 and the frame is taken; for n = 7 it is 255. -/
theorem eighthBadFrameLosesSync : Obligations.EighthBadFrameLosesSync := by
  intro s c n hb hc hlen hbad htotal hn
  have hnext : 1 + 2 * c.totalSyncErr = 2 ^ (n + 1) - 1 := by rw [htotal, escalate_two_pow_sub_one]
  rcases Nat.lt_or_eq_of_le hn with hlt | rfl
  · have hkept : 1 + 2 * c.totalSyncErr < 160 := hnext ▸ two_pow_sub_one_lt_frameLen hlt
    exact ⟨_, _, exec_extract_of_frame hb hc (extract_of_tolerated hlen hbad hkept), rfl, hnext,
      fun _ => ⟨rfl, _, rfl⟩, fun h => absurd h hlt.ne⟩
  · have hlost : 160 ≤ 1 + 2 * c.totalSyncErr := hnext ▸ by decide
    exact ⟨_, _, exec_extract_of_syncLost hb hc (extract_of_lost hlen hbad hlost), rfl, hnext,
      fun h => absurd h (lt_irrefl 7), fun _ => ⟨hnext, rfl, rfl, rfl⟩⟩

/-! ## DIFFDEC1 (R111) -/

/-- The recurrence of R111 adds up to the XOR of all symbols so far. -/
theorem runningXor_eq_foldl (x : FrameBits) (k : Nat) :
    runningXor x k = ((List.range (k + 1)).map x.getLsbD).foldl xor false := by
  induction k with
  | zero => exact Bool.xor_comm _ _
  | succ k ih =>
    rw [List.range_succ, List.map_append, List.foldl_append, ← ih]
    exact Bool.xor_comm _ _

/-- DIFFDEC1 presented by the block answers the decoded symbols and writes nothing else. -/
theorem exec_diffDec1 {s : State} {c : Channel} (hb : s.issuer = .block) (hc : s.inst = some c) :
    exec (.diffDec1 0) s = .next { s with result := some (.symbols (diffDec1 s.opRaw)), events := [] } :=
  asInternal_block hb hc _

theorem diffDec1_getLsbD_zero (x : FrameBits) : (diffDec1 x).getLsbD 0 = x.getLsbD 0 := by
  rw [diffDec1_getLsbD x 0 (by decide), runningXor, Bool.xor_false]

theorem diffDec1_getLsbD_succ (x : FrameBits) {k : Nat} (hk : k < 151) :
    (diffDec1 x).getLsbD (k + 1) = (x.getLsbD (k + 1) ^^ (diffDec1 x).getLsbD k) := by
  rw [diffDec1_getLsbD x (k + 1) (by omega), diffDec1_getLsbD x k (by omega), runningXor]

theorem lineEncode_getLsbD_zero (x : FrameBits) : (lineEncode x).getLsbD 0 = x.getLsbD 0 :=
  lineEncode_getLsbD x 0 (by decide)

theorem lineEncode_getLsbD_succ (x : FrameBits) {k : Nat} (hk : k < 151) :
    (lineEncode x).getLsbD (k + 1) = (x.getLsbD (k + 1) ^^ x.getLsbD k) :=
  lineEncode_getLsbD x (k + 1) (by omega)

/-- Decoding symbol k+1 cancels symbol k, which the line code XORed in and which is decoded already. -/
theorem diffDec1_lineEncode (x : FrameBits) : diffDec1 (lineEncode x) = x := by
  refine bits_ext fun k hk => ?_
  induction k with
  | zero => rw [diffDec1_getLsbD_zero, lineEncode_getLsbD_zero]
  | succ k ih =>
    have hk' : k < 151 := by omega
    rw [diffDec1_getLsbD_succ _ hk', lineEncode_getLsbD_succ _ hk', ih (by omega), Bool.xor_assoc, Bool.xor_self,
      Bool.xor_false]

/-- Encoding symbol k+1 cancels the decoded symbol k, which DIFFDEC1 XORed in. -/
theorem lineEncode_diffDec1 (x : FrameBits) : lineEncode (diffDec1 x) = x := by
  refine bits_ext fun k hk => ?_
  cases k with
  | zero => rw [lineEncode_getLsbD_zero, diffDec1_getLsbD_zero]
  | succ k =>
    have hk' : k < 151 := by omega
    rw [lineEncode_getLsbD_succ _ hk', diffDec1_getLsbD_succ _ hk', Bool.xor_assoc, Bool.xor_self, Bool.xor_false]

/-- Settles O29: the recurrence and the running XOR of the answer, then the two round trips of the line code. -/
theorem diffDec1DecodesTheLineCode : Obligations.DiffDec1DecodesTheLineCode := by
  refine ⟨fun s c hb hc => ⟨diffDec1 s.opRaw, exec_diffDec1 hb hc, diffDec1_getLsbD_zero _, ?_, ?_⟩, fun x => ?_⟩
  · intro k hk
    exact diffDec1_getLsbD_succ _ hk
  · intro k hk
    rw [diffDec1_getLsbD _ k hk, runningXor_eq_foldl]
  · exact ⟨diffDec1_lineEncode x, lineEncode_diffDec1 x⟩

end Sys2Proof.Machine
end

section
/-! # Proofs of family 43_channel_decoder: CHDEC

The two circular blocks are put in one view: symbols 2k and 2k+1 of the frame are its pair k, output i belongs with pair
i, and a place in a block's circle is reached from another by a rotation. Over this view R120 and R123 are one equation
each, the round trip of R123 cancels term by term, and R122 is read off from where one symbol enters. -/

namespace Sys2Proof.Machine

/-! ## The ones of a bit sequence -/

theorem countOnes_eq_card {n : Nat} (x : BitVec n) :
    countOnes x = ((Finset.range n).filter fun i => x.getLsbD i = true).card := by
  rw [Finset.card_filter]
  exact congrArg List.sum (List.map_congr_left fun i _ => by cases x.getLsbD i <;> rfl)

theorem countOnes_eq_length_filter {n : Nat} (x : BitVec n) :
    countOnes x = ((List.range n).filter fun i => x.getLsbD i).length := by
  rw [countOnes_eq_card]
  simp [Finset.card, Finset.filter, Finset.range, Multiset.range]

/-- The zero of a frame's outputs or flags, written as the model writes it. -/
theorem getLsbD_zero_decodedBits (k : Nat) : (0 : DecodedBits).getLsbD k = false := BitVec.getLsbD_zero

theorem getLsbD_xorAt_of_ne {n : Nat} (x : BitVec n) (b : Bool) {j k : Nat} (hk : k < n) (hkj : k ≠ j) :
    (xorAt x j b).getLsbD k = x.getLsbD k := by
  rw [getLsbD_xorAt x j b k hk, if_neg hkj]

/-- Element k after `x[j] ^= b`, as an XOR. -/
theorem getLsbD_xorAt_eq_xor {n : Nat} (x : BitVec n) (j : Nat) (b : Bool) {k : Nat} (hk : k < n) :
    (xorAt x j b).getLsbD k = (x.getLsbD k ^^ (decide (k = j) && b)) := by
  rw [getLsbD_xorAt x j b k hk]
  by_cases h : k = j <;> simp [h]

/-- Setting an element that was 0 adds one to the ones. -/
theorem countOnes_xorAt_true {n : Nat} {x : BitVec n} {j : Nat} (hj : j < n) (hx : x.getLsbD j = false) :
    countOnes (xorAt x j true) = countOnes x + 1 := by
  have hset : ((Finset.range n).filter fun i => (xorAt x j true).getLsbD i = true) =
      insert j ((Finset.range n).filter fun i => x.getLsbD i = true) := by
    ext i
    by_cases hi : i < n
    · rw [Finset.mem_insert, Finset.mem_filter, Finset.mem_filter, getLsbD_xorAt x j true i hi]
      by_cases hij : i = j
      · simp only [hij, hj, hx, Finset.mem_range, if_true, Bool.false_xor, and_self, true_or]
      · simp only [hij, if_false, false_or]
    · have hij : i ≠ j := fun h => hi (h ▸ hj)
      simp [hi, hij]
  rw [countOnes_eq_card, hset, Finset.card_insert_of_notMem (by simp [hx]), countOnes_eq_card]

/-- XORing into an element that was 0 adds what is XORed in. -/
theorem countOnes_xorAt_of_eq_false {n : Nat} {x : BitVec n} {j : Nat} (b : Bool) (hj : j < n)
    (hx : x.getLsbD j = false) : countOnes (xorAt x j b) = countOnes x + b.toNat := by
  cases b with
  | false => rfl
  | true => exact countOnes_xorAt_true hj hx

/-! ## Places in the two circular blocks -/

/-- The place d after i in the circle of i's own block, over both blocks (R120, R121). -/
def ahead (d i : Nat) : Nat := if i < 26 then (i + d) % 26 else 26 + (i - 26 + d) % 50

/-- The place d before i in the circle of i's own block, for d up to 26. -/
def behind (d i : Nat) : Nat := if i < 26 then (i + 26 - d) % 26 else 26 + (i - 26 + 50 - d) % 50

theorem ahead_low (d : Nat) {i : Nat} (hi : i < 26) : ahead d i = (i + d) % 26 := if_pos hi

theorem ahead_high (d j : Nat) : ahead d (26 + j) = 26 + (j + d) % 50 := by
  rw [ahead, if_neg (by omega), Nat.add_sub_cancel_left]

theorem behind_low (d : Nat) {i : Nat} (hi : i < 26) : behind d i = (i + 26 - d) % 26 := if_pos hi

theorem behind_high (d j : Nat) : behind d (26 + j) = 26 + (j + 50 - d) % 50 := by
  rw [behind, if_neg (by omega), Nat.add_sub_cancel_left]

theorem ahead_lt (d i : Nat) : ahead d i < 76 := by
  unfold ahead; split <;> omega

theorem behind_lt (d i : Nat) : behind d i < 76 := by
  unfold behind; split <;> omega

theorem ahead_ahead (d e i : Nat) : ahead d (ahead e i) = ahead (e + d) i := by
  unfold ahead; split <;> split <;> omega

theorem ahead_behind {d i : Nat} (hd : d ≤ 26) (hi : i < 76) : ahead d (behind d i) = i := by
  unfold ahead behind; split <;> split <;> omega

theorem behind_ahead {d i : Nat} (hd : d ≤ 26) (hi : i < 76) : behind d (ahead d i) = i := by
  unfold ahead behind; split <;> split <;> omega

theorem behind_behind {d e i : Nat} (hd : d + e ≤ 26) (hi : i < 76) : behind d (behind e i) = behind (d + e) i := by
  unfold behind; split <;> split <;> omega

theorem behind_ne_behind {d e i : Nat} (he : e < 26) (hde : d < e) : behind d i ≠ behind e i := by
  unfold behind; split <;> omega

/-- The output that a place is ahead of. -/
theorem eq_ahead_iff {d i k : Nat} (hd : d ≤ 26) (hi : i < 76) (hk : k < 76) : k = ahead d i ↔ i = behind d k := by
  constructor
  · rintro rfl; exact (behind_ahead hd hi).symm
  · rintro rfl; exact (ahead_behind hd hk).symm

/-! ## CHDEC and its encoder over both blocks -/

/-- An output is the XOR of the next pair (R120). -/
theorem chDec_data (f : Frame) {i : Nat} (hi : i < 76) :
    (chDec f).data.getLsbD i = (f.data.getLsbD (2 * ahead 1 i) ^^ f.data.getLsbD (2 * ahead 1 i + 1)) := by
  by_cases hlow : i < 26
  · rw [chDec_data_low f i hlow, resBit, ahead_low 1 hlow]
    congr 2 <;> omega
  · obtain ⟨j, rfl⟩ := Nat.exists_eq_add_of_le (Nat.le_of_not_lt hlow)
    rw [chDec_data_high f j (by omega), resBit, ahead_high]
    congr 2 <;> omega

/-- The check of output i is the odd symbol two pairs ahead XOR the output there (R123's derivation). -/
theorem chDec_err (f : Frame) {i : Nat} (hi : i < 76) :
    (chDec f).err.getLsbD i =
      (f.data.getLsbD (2 * ahead 2 i + 1) ^^ (chDec f).data.getLsbD (ahead 2 i) ^^ (chDec f).data.getLsbD i) := by
  rw [chDec_data f (ahead_lt 2 i), ahead_ahead, ← Bool.xor_assoc]
  by_cases hlow : i < 26
  · rw [chDec_err_low f i hlow, ← chDec_data_low f i hlow, chkBit, ahead_low 2 hlow, ahead_low 3 hlow,
      show (2 * i + 5) % 52 = 2 * ((i + 2) % 26) + 1 by omega, show (2 * i + 6) % 52 = 2 * ((i + 3) % 26) by omega,
      show (2 * i + 7) % 52 = 2 * ((i + 3) % 26) + 1 by omega]
  · obtain ⟨j, rfl⟩ := Nat.exists_eq_add_of_le (Nat.le_of_not_lt hlow)
    rw [chDec_err_high f j (by omega), ← chDec_data_high f j (by omega), chkBit, ahead_high, ahead_high,
      show 52 + (2 * j + 5) % 100 = 2 * (26 + (j + 2) % 50) + 1 by omega,
      show 52 + (2 * j + 6) % 100 = 2 * (26 + (j + 3) % 50) by omega,
      show 52 + (2 * j + 7) % 100 = 2 * (26 + (j + 3) % 50) + 1 by omega]

/-- The odd symbol of pair k (R123). -/
theorem chEnc_odd (b : DecodedBits) {k : Nat} (hk : k < 76) :
    (chEnc b).getLsbD (2 * k + 1) = (b.getLsbD (behind 2 k) ^^ b.getLsbD k) := by
  by_cases hlow : k < 26
  · rw [chEnc_low b _ (by omega), chEncBit, if_pos (by omega), show (2 * k + 1) / 2 = k by omega,
      Nat.mod_eq_of_lt hlow, behind_low 2 hlow]
  · obtain ⟨j, rfl⟩ := Nat.exists_eq_add_of_le (Nat.le_of_not_lt hlow)
    have hj : j < 50 := by omega
    rw [show 2 * (26 + j) + 1 = 52 + (2 * j + 1) by omega, chEnc_high b _ (by omega), chEncBit, if_pos (by omega),
      show (2 * j + 1) / 2 = j by omega, Nat.mod_eq_of_lt hj, behind_high]

/-- The even symbol of pair k (R123). -/
theorem chEnc_even (b : DecodedBits) {k : Nat} (hk : k < 76) :
    (chEnc b).getLsbD (2 * k) = (b.getLsbD (behind 1 k) ^^ (chEnc b).getLsbD (2 * k + 1)) := by
  rw [chEnc_odd b hk]
  by_cases hlow : k < 26
  · rw [chEnc_low b _ (by omega), chEncBit, if_neg (by omega), show 2 * k / 2 = k by omega,
      Nat.mod_eq_of_lt hlow, behind_low 1 hlow, behind_low 2 hlow]
  · obtain ⟨j, rfl⟩ := Nat.exists_eq_add_of_le (Nat.le_of_not_lt hlow)
    have hj : j < 50 := by omega
    rw [show 2 * (26 + j) = 52 + 2 * j by omega, chEnc_high b _ (by omega), chEncBit, if_neg (by omega),
      show 2 * j / 2 = j by omega, Nat.mod_eq_of_lt hj, behind_high, behind_high]

/-- Settles O30: the whole next state, the count as a number of flags, and the outputs and flags of each block. -/
theorem chDecDecodesBothBlocks : Obligations.ChDecDecodesBothBlocks := by
  intro s c f hb hc hf
  refine ⟨chDec f, errorCount (chDec f), exec_chDec hb hc hf, chDec_no f, countOnes_eq_length_filter _,
    fun i hi => ⟨chDec_data_low f i hi, ?_⟩, fun i hi => ⟨chDec_data_high f i hi, ?_⟩⟩
  · rw [chDec_err_low f i hi, chDec_data_low f i hi, chkBit]
  · rw [chDec_err_high f i hi, chDec_data_high f i hi, chkBit]

/-! ## The error-free inputs (R123) -/

/-- The next pair of an encoded frame is `b[i] XOR y` and `y`, whose XOR is `b[i]`. -/
theorem chDec_chEnc_data (b : DecodedBits) (no : FrameNo) : (chDec { data := chEnc b, no := no }).data = b := by
  refine bits_ext fun i hi => ?_
  rw [chDec_data _ hi, chEnc_even b (ahead_lt 1 i), behind_ahead (by decide) hi, Bool.xor_assoc, Bool.xor_self,
    Bool.xor_false]

/-- The odd symbol two pairs ahead is the XOR of the two outputs the flag compares. -/
theorem chDec_chEnc_err (b : DecodedBits) (no : FrameNo) : (chDec { data := chEnc b, no := no }).err = 0 := by
  refine bits_ext fun i hi => ?_
  rw [chDec_err _ hi, chDec_chEnc_data, chEnc_odd b (ahead_lt 2 i), behind_ahead (by decide) hi,
    Bool.xor_assoc (b.getLsbD i), Bool.xor_self, Bool.xor_false, Bool.xor_self]
  exact (getLsbD_zero_decodedBits i).symm

theorem chDec_chEnc (b : DecodedBits) (no : FrameNo) :
    chDec { data := chEnc b, no := no } = { data := b, err := 0, no := no } := by
  rw [Decoded.mk.injEq]
  exact ⟨chDec_chEnc_data b no, chDec_chEnc_err b no, rfl⟩

theorem eq_xor_of_xor_eq_false : ∀ {x y z : Bool}, (x ^^ y ^^ z) = false → x = (z ^^ y) := by decide

/-- A flag that is not set gives the odd symbol two pairs ahead (R123). -/
theorem odd_symbol_of_err_eq_zero {f : Frame} (h : (chDec f).err = 0) {k : Nat} (hk : k < 76) :
    f.data.getLsbD (2 * k + 1) = ((chDec f).data.getLsbD (behind 2 k) ^^ (chDec f).data.getLsbD k) := by
  have hflag := chDec_err f (behind_lt 2 k)
  rw [h, ahead_behind (by decide) hk, getLsbD_zero_decodedBits] at hflag
  exact eq_xor_of_xor_eq_false hflag.symm

/-- The output before a pair gives its even symbol from its odd one (R123). -/
theorem even_symbol (f : Frame) {k : Nat} (hk : k < 76) :
    f.data.getLsbD (2 * k) = ((chDec f).data.getLsbD (behind 1 k) ^^ f.data.getLsbD (2 * k + 1)) := by
  rw [chDec_data f (behind_lt 1 k), ahead_behind (by decide) hk, Bool.xor_assoc, Bool.xor_self, Bool.xor_false]

/-- An input with no flag is the encoding of its outputs: both symbols of each pair are those of R123. -/
theorem eq_chEnc_of_err_eq_zero {f : Frame} (h : (chDec f).err = 0) : f.data = chEnc (chDec f).data := by
  have hodd : ∀ k, k < 76 → f.data.getLsbD (2 * k + 1) = (chEnc (chDec f).data).getLsbD (2 * k + 1) := by
    intro k hk
    rw [odd_symbol_of_err_eq_zero h hk, chEnc_odd _ hk]
  refine bits_ext fun m hm => ?_
  rcases Nat.even_or_odd' m with ⟨k, rfl | rfl⟩
  · rw [even_symbol f (by omega), chEnc_even _ (by omega), hodd k (by omega)]
  · exact hodd k (by omega)

/-- Settles O31: decoding cancels the encoder, and no flag at all makes the input the encoding of its outputs. -/
theorem errorFreeInputsAreTheCode : Obligations.ErrorFreeInputsAreTheCode :=
  ⟨chDec_chEnc, fun _ h => eq_chEnc_of_err_eq_zero ((countOnes_eq_zero _).1 h)⟩

/-! ## One wrong symbol (R122) -/

/-- A wrong symbol flips the XOR of its own pair and of no other. -/
theorem xor_pair_of_flip (x : FrameBits) (m : Nat) {k : Nat} (hk : k < 76) :
    ((xorAt x m true).getLsbD (2 * k) ^^ (xorAt x m true).getLsbD (2 * k + 1)) =
      ((x.getLsbD (2 * k) ^^ x.getLsbD (2 * k + 1)) ^^ decide (m / 2 = k)) := by
  rw [getLsbD_xorAt x m true _ (by omega), getLsbD_xorAt x m true _ (by omega)]
  by_cases heven : 2 * k = m
  · rw [if_pos heven, if_neg (by omega), decide_eq_true (by omega), Bool.xor_right_comm]
  · rw [if_neg heven]
    by_cases hodd : 2 * k + 1 = m
    · rw [if_pos hodd, decide_eq_true (by omega), Bool.xor_assoc]
    · rw [if_neg hodd, decide_eq_false (by omega), Bool.xor_false]

/-- The wrong symbol enters the output before its pair, and no other. -/
theorem chDec_data_of_flip (b : DecodedBits) (no : FrameNo) {m : Nat} (hm : m < 152) :
    (chDec { data := xorAt (chEnc b) m true, no := no }).data = xorAt b (behind 1 (m / 2)) true := by
  refine bits_ext fun i hi => ?_
  have hclean := chDec_data { data := chEnc b, no := no } hi
  rw [chDec_chEnc_data] at hclean
  have hpair := eq_ahead_iff (d := 1) (k := m / 2) (by decide) hi (by omega)
  rw [chDec_data _ hi, xor_pair_of_flip _ m (ahead_lt 1 i), ← hclean, getLsbD_xorAt_eq_xor b _ true hi,
    decide_eq_decide.2 hpair, Bool.and_true]

/-- In a flag the two right outputs x and y cancel, and what is left is where the two outputs (g and f) and the odd
symbol (o) were flipped. -/
theorem xor_flips_of_flag : ∀ x y o f g : Bool, ((x ^^ y) ^^ o ^^ (y ^^ f) ^^ (x ^^ g)) = (g ^^ f ^^ o) := by decide

/-- Two flags see the wrong output; a wrong odd symbol enters one flag more. -/
theorem chDec_err_of_flip (b : DecodedBits) (no : FrameNo) {m : Nat} (hm : m < 152) :
    (chDec { data := xorAt (chEnc b) m true, no := no }).err =
      xorAt (xorAt (xorAt 0 (behind 1 (m / 2)) true) (behind 3 (m / 2)) true) (behind 2 (m / 2))
        (decide (m % 2 = 1)) := by
  refine bits_ext fun i hi => ?_
  have hq : m / 2 < 76 := by omega
  have hodd : 2 * ahead 2 i + 1 = m ↔ i = behind 2 (m / 2) ∧ m % 2 = 1 := by
    rw [← eq_ahead_iff (by decide) hi hq]; omega
  have hout : ahead 2 i = behind 1 (m / 2) ↔ i = behind 3 (m / 2) := by
    rw [eq_comm, eq_ahead_iff (by decide) hi (behind_lt 1 _), behind_behind (by decide) hq]
  have ha := ahead_lt 2 i
  rw [chDec_err _ hi, chDec_data_of_flip b no hm, getLsbD_xorAt_eq_xor _ _ _ (by omega),
    getLsbD_xorAt_eq_xor b _ _ ha, getLsbD_xorAt_eq_xor b _ _ hi, chEnc_odd b ha, behind_ahead (by decide) hi,
    xor_flips_of_flag, getLsbD_xorAt_eq_xor _ _ _ hi, getLsbD_xorAt_eq_xor _ _ _ hi, getLsbD_xorAt_eq_xor _ _ _ hi,
    decide_eq_decide.2 hout, decide_eq_decide.2 hodd, Bool.decide_and, getLsbD_zero_decodedBits, Bool.false_xor,
    Bool.and_true, Bool.and_true, Bool.and_true]

/-- The flags that see the wrong output are two, and that of a wrong odd symbol is a third (R122). -/
theorem countOnes_flags_of_flip (q : Nat) (odd : Bool) :
    countOnes (xorAt (xorAt (xorAt (0 : DecodedBits) (behind 1 q) true) (behind 3 q) true) (behind 2 q) odd) =
      2 + odd.toNat := by
  have h31 : behind 3 q ≠ behind 1 q := (behind_ne_behind (by decide) (by decide)).symm
  have h21 : behind 2 q ≠ behind 1 q := (behind_ne_behind (by decide) (by decide)).symm
  have h23 : behind 2 q ≠ behind 3 q := behind_ne_behind (by decide) (by decide)
  rw [countOnes_xorAt_of_eq_false odd (behind_lt 2 q), countOnes_xorAt_of_eq_false true (behind_lt 3 q),
    countOnes_xorAt_of_eq_false true (behind_lt 1 q), (countOnes_eq_zero _).2 rfl]
  · rfl
  · exact getLsbD_zero_decodedBits _
  · rw [getLsbD_xorAt_of_ne _ _ (behind_lt 3 q) h31, getLsbD_zero_decodedBits]
  · rw [getLsbD_xorAt_of_ne _ _ (behind_lt 2 q) h23, getLsbD_xorAt_of_ne _ _ (behind_lt 2 q) h21,
      getLsbD_zero_decodedBits]

/-- Settles O32: the flags and the outputs of a frame with one wrong symbol are written out, and counted. -/
theorem oneWrongSymbolIsDetected : Obligations.OneWrongSymbolIsDetected := by
  intro b no m hm
  constructor
  · rw [errorCount, chDec_err_of_flip b no hm, countOnes_flags_of_flip]
    by_cases hodd : m % 2 = 1 <;> simp [hodd]
  · exact ⟨behind 1 (m / 2), behind_lt 1 _, chDec_data_of_flip b no hm⟩

end Sys2Proof.Machine
end

section
/-! # Proofs of family 44_deinterleaver: DEINTERLEAVE

Gathering through two tables one after the other is gathering through their composition, and through the identity it
leaves the frame: the inverse permutation restores it. The number of ones is a sum over the positions, and a permutation
of the positions keeps a sum. -/

namespace Sys2Proof.Machine

/-! ## Gathering through a table (R130) -/

/-- The second gather reads, at j, what the first one read at `S j`. -/
theorem deinterleave_deinterleave (S T : Fin 152 → Fin 152) (x : FrameBits) :
    deinterleave S (deinterleave T x) = deinterleave (T ∘ S) x := by
  refine bits_ext fun k hk => ?_
  calc (deinterleave S (deinterleave T x)).getLsbD k
      = (deinterleave T x).getLsbD (S ⟨k, hk⟩) := deinterleave_getLsbD S _ ⟨k, hk⟩
    _ = x.getLsbD (T (S ⟨k, hk⟩)) := deinterleave_getLsbD T x _
    _ = (deinterleave (T ∘ S) x).getLsbD k := (deinterleave_getLsbD (T ∘ S) x ⟨k, hk⟩).symm

@[simp] theorem deinterleave_id (x : FrameBits) : deinterleave id x = x :=
  bits_ext fun k hk => deinterleave_getLsbD id x ⟨k, hk⟩

theorem deinterleave_symm_deinterleave (T : Equiv.Perm (Fin 152)) (x : FrameBits) :
    deinterleave T.symm (deinterleave T x) = x := by
  rw [deinterleave_deinterleave, T.self_comp_symm, deinterleave_id]

theorem countOnes_eq_sum {n : Nat} (x : BitVec n) : countOnes x = ∑ i : Fin n, (x.getLsbD i).toNat :=
  Finset.sum_range fun i => (x.getLsbD i).toNat

/-- A permutation only reorders the sum that counts the ones. -/
theorem countOnes_deinterleave (T : Equiv.Perm (Fin 152)) (x : FrameBits) :
    countOnes (deinterleave T x) = countOnes x := by
  simp only [countOnes_eq_sum, deinterleave_getLsbD]
  exact Equiv.sum_comp T fun i => (x.getLsbD i).toNat

/-- Settles O33: the whole next state and its elements, then the four rules of gathering through a permutation. -/
theorem deinterleaveGathersThroughTheTable : Obligations.DeinterleaveGathersThroughTheTable := by
  constructor
  · intro s c f hb hc hu hf
    exact ⟨_, exec_deinterleave hb hc hu hf, deinterleave_getLsbD _ _⟩
  · intro T x
    exact ⟨deinterleave_symm_deinterleave T x, deinterleave_symm_deinterleave T.symm x, countOnes_deinterleave T x,
      deinterleave_id x⟩

/-! ## Band VHF (R132) -/

/-- The internal operations on `FR`, past their checks: the block presents them, and an instance and a Frame exist. -/
theorem asInternal_withFrame {s : State} {c : Channel} {f : Frame} (hb : s.issuer = .block) (hc : s.inst = some c)
    (hf : s.fr = some f) (k : Channel → Frame → Host.Outcome State Fault Refusal) :
    (asInternal s 0 fun c => withFrame s (k c)) = k c f :=
  (asInternal_block hb hc _).trans (withFrame_some hf _)

/-- Settles O39: past its checks each of the three operations asks for the band, and VHF only answers. -/
theorem vhfHasNoTable : Obligations.VhfHasNoTable := by
  intro s c f hb hc hv hf
  refine ⟨(asInternal_withFrame hb hc hf _).trans ?deinterleave, (asInternal_withFrame hb hc hf _).trans ?scrDetect,
    (asInternal_withFrame hb hc hf _).trans ?cchProc⟩
  all_goals
    simp only [hv]
    rfl

end Sys2Proof.Machine
end

section
/-! # Proofs of family 45_diff_precode_decoder: DIFFDEC2 and the precode

Each whole pass is one equation per position. DIFFDEC2 reads its input only; the precode reads what it has already
written at a position before. So the round trip through the precode cancels position by position, and the one through
DIFFDEC2 goes by strong induction on the position. -/

namespace Sys2Proof.Machine

/-! ## The two passes, position by position (R140, R141) -/

/-- A distance is at least 1, so a pass reads before the position it writes (R142). -/
theorem sub_dist_lt (P : Config.Params) {j : Nat} (h1 : 1 ≤ j) (h151 : j ≤ 151) : j - P.dist j < j :=
  Nat.sub_lt h1 (P.dist_pos j h1 h151)

theorem diffDec2_getLsbD_zero (P : Config.Params) (x : FrameBits) : (diffDec2 P.dist x).getLsbD 0 = x.getLsbD 0 :=
  diffDec2From_getLsbD P.dist P.dist_pos 151 le_rfl x 0 (by decide)

theorem diffDec2_getLsbD (P : Config.Params) (x : FrameBits) {j : Nat} (h1 : 1 ≤ j) (h151 : j ≤ 151) :
    (diffDec2 P.dist x).getLsbD j = (x.getLsbD j ^^ x.getLsbD (j - P.dist j)) :=
  (diffDec2From_getLsbD P.dist P.dist_pos 151 le_rfl x j (by omega)).trans (if_pos ⟨h1, h151⟩)

theorem precode_getLsbD_zero (P : Config.Params) (x : FrameBits) : (precode P.dist x).getLsbD 0 = x.getLsbD 0 :=
  precodeTo_getLsbD P.dist P.dist_pos 151 le_rfl x 0 (by decide)

theorem precode_getLsbD (P : Config.Params) (x : FrameBits) {j : Nat} (h1 : 1 ≤ j) (h151 : j ≤ 151) :
    (precode P.dist x).getLsbD j = (x.getLsbD j ^^ (precode P.dist x).getLsbD (j - P.dist j)) :=
  (precodeTo_getLsbD P.dist P.dist_pos 151 le_rfl x j (by omega)).trans (if_pos ⟨h1, h151⟩)

/-- Settles O34: the whole next state, and its symbols by the element equation of the descending pass. -/
theorem diffDec2EqualsItsParallelForm : Obligations.DiffDec2EqualsItsParallelForm := by
  intro s c f hb hc hf
  exact ⟨_, exec_diffDec2 hb hc hf, diffDec2_getLsbD_zero _ _, fun _ h1 h151 => diffDec2_getLsbD _ _ h1 h151⟩

/-! ## The round trips (R141) -/

/-- DIFFDEC2 XORs into position j the same precoded symbol that the precode XORed in. -/
theorem diffDec2_precode (P : Config.Params) (x : FrameBits) : diffDec2 P.dist (precode P.dist x) = x := by
  refine bits_ext fun j hj => ?_
  rcases Nat.eq_zero_or_pos j with rfl | h1
  · rw [diffDec2_getLsbD_zero, precode_getLsbD_zero]
  · have h151 : j ≤ 151 := by omega
    rw [diffDec2_getLsbD P _ h1 h151, precode_getLsbD P x h1 h151, Bool.xor_assoc, Bool.xor_self, Bool.xor_false]

/-- The precode XORs into position j the symbol it has restored at the earlier position, which DIFFDEC2 XORed in. -/
theorem precode_diffDec2 (P : Config.Params) (x : FrameBits) : precode P.dist (diffDec2 P.dist x) = x := by
  refine bits_ext fun j hj => ?_
  induction j using Nat.strong_induction_on with
  | _ j ih =>
    rcases Nat.eq_zero_or_pos j with rfl | h1
    · rw [precode_getLsbD_zero, diffDec2_getLsbD_zero]
    · have h151 : j ≤ 151 := by omega
      have hlt : j - P.dist j < j := sub_dist_lt P h1 h151
      have restored := ih (j - P.dist j) hlt (hlt.trans hj)
      rw [precode_getLsbD P _ h1 h151, diffDec2_getLsbD P x h1 h151, restored, Bool.xor_assoc, Bool.xor_self,
        Bool.xor_false]

/-- Settles O35: both round trips, for every table that the parameters admit. -/
theorem precodeRoundTrip : Obligations.PrecodeRoundTrip :=
  fun P x => ⟨diffDec2_precode P x, precode_diffDec2 P x⟩

end Sys2Proof.Machine
end

section
/-! # Proofs of family 46_descrambler: the scrambling sequence and DESCRAMBLE

The sequence is read as a cycle of 127 symbols. On the cycle the recurrence holds at every symbol, and it is all that is
taken from the table beside the seven ones and the number of ones. Since 127 is prime, the multiples of a shift reach
every position of the cycle, so a shift that kept the sequence would make `S[0]` and `S[7]` equal. That no shift keeps
it is also why two phases of DESCRAMBLE differ. -/

namespace Sys2Proof.Machine

/-! ## The sequence (R150) -/

theorem scrSeq_of_lt_seven : ∀ k, k < 7 → scrSeq k = true := by decide

/-- The recurrence on the cycle of 127 symbols: the symbols 1 and 7 places back are those 126 and 120 places ahead. -/
theorem scrSeq_cyclic : ∀ k, k < 127 → scrSeq k = (scrSeq ((k + 126) % 127) ^^ scrSeq ((k + 120) % 127)) := by decide

/-- The recurrence continued modulo 127 is the one on the cycle. -/
theorem scrSeq_mod_recurrence {k : Nat} (hk : 7 ≤ k) :
    scrSeq (k % 127) = (scrSeq ((k - 1) % 127) ^^ scrSeq ((k - 7) % 127)) := by
  have hcycle := scrSeq_cyclic (k % 127) (Nat.mod_lt k (by decide))
  have h1 : (k % 127 + 126) % 127 = (k - 1) % 127 := by omega
  have h7 : (k % 127 + 120) % 127 = (k - 7) % 127 := by omega
  rwa [h1, h7] at hcycle

theorem scrSeq_recurrence {k : Nat} (hk : k < 127) (h7 : 7 ≤ k) :
    scrSeq k = (scrSeq (k - 1) ^^ scrSeq (k - 7)) := by
  have hmod := scrSeq_mod_recurrence h7
  rwa [Nat.mod_eq_of_lt hk, Nat.mod_eq_of_lt (by omega), Nat.mod_eq_of_lt (by omega)] at hmod

theorem countOnes_scrTable : countOnes scrTable = 64 := by decide +kernel

/-- The first zero comes right after the seven ones. -/
theorem scrSeq_zero_ne_seven : scrSeq 0 ≠ scrSeq 7 := by
  rw [scrSeq_recurrence (by decide) le_rfl, scrSeq_of_lt_seven 0 (by decide), scrSeq_of_lt_seven 6 (by decide)]
  decide

/-- The multiples of a shift reach position 7, for 127 is prime. -/
theorem exists_mul_mod_eq_seven {d : Nat} (h0 : 0 < d) (hd : d < 127) : ∃ m, m * d % 127 = 7 := by
  have hcop : Nat.Coprime d 127 := (Nat.coprime_of_lt_prime h0.ne' hd (by norm_num)).symm
  obtain ⟨m, -, hm⟩ := Nat.exists_mul_mod_eq_of_coprime 7 hcop (by decide)
  exact ⟨m, by rw [Nat.mul_comm]; exact hm⟩

/-- A shift that kept every symbol would carry `S[0]` to `S[7]`. -/
theorem exists_scrSeq_shift_ne {d : Nat} (h0 : 0 < d) (hd : d < 127) :
    ∃ k, k < 127 ∧ scrSeq ((k + d) % 127) ≠ scrSeq k := by
  by_contra! hkeep
  have hperiodic : Function.Periodic (fun k => scrSeq (k % 127)) d := fun k => by
    simpa using hkeep (k % 127) (Nat.mod_lt k (by decide))
  obtain ⟨m, hm⟩ := exists_mul_mod_eq_seven h0 hd
  have hreach : scrSeq (m * d % 127) = scrSeq 0 := hperiodic.nat_mul_eq m
  exact scrSeq_zero_ne_seven (hm ▸ hreach.symm)

/-- Settles O36: the recurrence with its start, its continuation from the cycle, and the least period. -/
theorem scramblingSequenceRecurrence : Obligations.ScramblingSequenceRecurrence :=
  ⟨scrSeq_of_lt_seven, fun _ hk h7 => scrSeq_recurrence hk h7, countOnes_scrTable,
    fun _ h7 => scrSeq_mod_recurrence h7, fun _ h0 hd => exists_scrSeq_shift_ne h0 hd⟩

/-! ## DESCRAMBLE (R151) -/

/-- Both passes XOR the same sequence symbol into a position. -/
theorem descramble_descramble (c : Fin 128) (x : FrameBits) : descramble c (descramble c x) = x := by
  by_cases hc : c = 0
  · rw [hc, descramble_zero, descramble_zero]
  · refine bits_ext fun k hk => ?_
    rw [descramble_getLsbD hc _ k hk, descramble_getLsbD hc x k hk, Bool.xor_assoc, Bool.xor_self, Bool.xor_false]

/-- The position at which the phase c meets `S[0]` is changed. -/
theorem descramble_ne_self {c : Fin 128} (hc : c ≠ 0) (x : FrameBits) : descramble c x ≠ x := by
  intro h
  have hpos : 0 < c.val := Fin.pos_iff_ne_zero.2 hc
  have hbit := descramble_getLsbD hc x (127 - c.val) (by omega)
  have hphase : (127 - c.val + c.val) % 127 = 0 := by omega
  rw [h, hphase, scrSeq_of_lt_seven 0 (by decide)] at hbit
  simp at hbit

/-- Two phases differ where the shift between them changes the sequence. -/
theorem descramble_ne_of_lt {a b : Fin 128} (hab : a < b) (x : FrameBits) : descramble a x ≠ descramble b x := by
  have hlt : a.val < b.val := hab
  have hb : b ≠ 0 := Fin.pos_iff_ne_zero.1 (by omega)
  by_cases ha : a = 0
  · rw [ha, descramble_zero]
    exact (descramble_ne_self hb x).symm
  · have hpos : 0 < a.val := Fin.pos_iff_ne_zero.2 ha
    obtain ⟨j, hj, hshift⟩ := exists_scrSeq_shift_ne (d := b.val - a.val) (by omega) (by omega)
    have hk : (j + 127 - a.val) % 127 < 152 := by omega
    have hphaseA : ((j + 127 - a.val) % 127 + a.val) % 127 = j := by omega
    have hphaseB : ((j + 127 - a.val) % 127 + b.val) % 127 = (j + (b.val - a.val)) % 127 := by omega
    intro h
    have hbit := congrArg (fun y => y.getLsbD ((j + 127 - a.val) % 127)) h
    simp only [descramble_getLsbD ha x _ hk, descramble_getLsbD hb x _ hk, hphaseA, hphaseB,
      Bool.xor_right_inj] at hbit
    exact hshift hbit.symm

/-- The 128 constants give 128 results on each frame. -/
theorem descramble_injective (x : FrameBits) : Function.Injective fun c => descramble c x :=
  Function.Injective.of_lt_imp_ne fun _ _ hab => descramble_ne_of_lt hab x

/-- Settles O37: the whole next state with its symbols, then the involution and the 128 different transforms. -/
theorem descrambleFollowsTheSequence : Obligations.DescrambleFollowsTheSequence := by
  refine ⟨fun s c f hb hc hf => ?_, descramble_descramble, fun _ _ x h => descramble_injective x h⟩
  refine ⟨descramble s.opC f.data, exec_descramble hb hc hf, fun h0 => ?_, fun h0 => descramble_getLsbD h0 f.data⟩
  rw [h0, descramble_zero]

end Sys2Proof.Machine
end

section
/-! # Proofs of family 47_scr_detector: TRIAL_DECODE and SCRDETECT

TRIAL_DECODE is a chain of four next states. SCRDETECT has two outcomes, one for each value of the commit condition. On
frames that pass for one constant only, the scores stay 0 but for that constant's, which counts the frames: that is the
invariant of the convergence. -/

namespace Sys2Proof.Machine

/-! ## TRIAL_DECODE (R160) -/

/-- TRIAL_DECODE as CHDEC of the Frame that the other three transforms leave (R160). -/
theorem trialDecode_eq_chDec (P : Config.Params) (f : Frame) (c : Fin 128) :
    trialDecode P f c =
      chDec { data := deinterleave P.ilvUhfData (diffDec2 P.dist (descramble c f.data)), no := f.no } := by
  rw [trialDecode]

/-- Settles O38: each transform finds in `FR` what the one before it left there. -/
theorem trialDecodeIsTheTransformChain : Obligations.TrialDecodeIsTheTransformChain := by
  intro s c f hb hc hu hf
  rw [trialDecode_eq_chDec]
  refine ⟨_, _, _, _, exec_descramble hb hc hf, exec_diffDec2 hb hc rfl, exec_deinterleave hb hc hu rfl,
    exec_chDec hb hc rfl, ?_, ?_⟩
  all_goals simp only

/-! ## One SCRDETECT (R161 to R166) -/

/-- The commit condition where `best` is known (R164). -/
theorem commits_iff_of_best {stat : Vector Nat 128} {b : Fin 128} (hbest : bestCandidate stat = b) (n : Nat) :
    commits stat n = true ↔ ∀ j : Fin 128, j ≠ b → stat[j] + n < stat[b] :=
  hbest ▸ commits_iff stat n

theorem onlyDiag_emitDiag_nil (P : Config.Params) (d : Diag) : OnlyDiag (emitDiag P [] d) d := by
  intro x hx
  unfold emitDiag at hx
  split at hx
  · simpa using hx
  · simp at hx

theorem scores_ext {v w : Vector Nat 128} (h : ∀ j : Fin 128, v[j] = w[j]) : v = w :=
  Vector.ext fun i hi => h ⟨i, hi⟩

/-- The scores after a run, with the trial's two conditions written out (R162). -/
theorem scoresAfter_eq_ofFn (P : Config.Params) (f : Frame) (stat : Vector Nat 128) :
    scoresAfter P f stat = Vector.ofFn fun j : Fin 128 =>
      if errorCount (trialDecode P f j) = 0 ∧ P.crcCheck (trialDecode P f j).data = true
      then stat[j] + 1 else stat[j] - 2 := by
  refine scores_ext fun j => ?_
  rw [scoresAfter_getElem]
  simp only [trialPasses_iff, Fin.getElem_fin, Vector.getElem_ofFn]

/-- SCRDETECT presented by the block leaves the instance and the events its function answers (R161). -/
theorem exec_scrDetect_of_eq {s : State} {c c' : Channel} {f : Frame} {es : List Event} (hb : s.issuer = .block)
    (hc : s.inst = some c) (hu : c.band = .uhf) (hf : s.fr = some f)
    (hdetect : scrDetect Config.params c f [] = (c', es)) :
    exec (.scrDetect 0) s = .next { s with inst := some c', result := none, events := es } := by
  rw [exec_scrDetect hb hc hu hf, hdetect]

/-- Settles O41: `best` and its two properties are those of the scan over the new scores, and the margin test decides
between the two outcomes of SCRDETECT. -/
theorem scrDetectScoresSelectsCommits : Obligations.ScrDetectScoresSelectsCommits := by
  intro s c f hb hc hu hf score
  have hstat : scoresAfter Config.params f c.scrStat = Vector.ofFn score := scoresAfter_eq_ofFn _ _ _
  have hscore : ∀ j : Fin 128, (Vector.ofFn score)[j] = score j := fun j => by simp
  obtain ⟨hmax, hlowest⟩ := bestCandidate_spec (Vector.ofFn score)
  have hcommit := commits_iff (Vector.ofFn score) c.scrConfidence
  simp only [hscore] at hmax hlowest hcommit
  cases hmargin : commits (Vector.ofFn score) c.scrConfidence with
  | false =>
    have hdetect := scrDetect_of_not_commits (es := []) (hstat ▸ hmargin)
    rw [hstat] at hdetect
    exact ⟨_, [], hmax, hlowest, fun _ => ⟨rfl, exec_scrDetect_of_eq hb hc hu hf hdetect⟩,
      fun hlead => absurd (hcommit.2 hlead) (Bool.eq_false_iff.1 hmargin)⟩
  | true =>
    have hdetect := scrDetect_of_commits (es := []) (hstat ▸ hmargin)
    rw [hstat, zeroScores_eq_replicate] at hdetect
    exact ⟨_, _, hmax, hlowest, fun ⟨j, hj, hclose⟩ => absurd (hcommit.1 hmargin j hj) hclose.not_gt,
      fun _ => ⟨mandatory_emitDiag _ _ _, onlyDiag_emitDiag_nil _ _, exec_scrDetect_of_eq hb hc hu hf hdetect⟩⟩

/-! ## Convergence (R168) -/

/-- The scores while one constant alone passes: n for it, 0 for every other. -/
def soleScore (k : Fin 128) (n : Nat) : Vector Nat 128 := Vector.ofFn fun j => if j = k then n else 0

theorem soleScore_getElem (k : Fin 128) (n : Nat) (j : Fin 128) : (soleScore k n)[j] = if j = k then n else 0 := by
  simp [soleScore]

@[simp] theorem soleScore_getElem_self (k : Fin 128) (n : Nat) : (soleScore k n)[k] = n := by
  rw [soleScore_getElem, if_pos rfl]

theorem soleScore_getElem_of_ne {k j : Fin 128} (h : j ≠ k) (n : Nat) : (soleScore k n)[j] = 0 := by
  rw [soleScore_getElem, if_neg h]

theorem soleScore_zero (k : Fin 128) : soleScore k 0 = Vector.replicate 128 0 :=
  scores_ext fun j => by simp [soleScore]

/-- The passing constant gains 1; the others lose 2 from 0 (R162). -/
theorem scoresAfter_soleScore {P : Config.Params} {f : Frame} {k : Fin 128}
    (hpass : ∀ j, trialPasses P f j = decide (j = k)) (n : Nat) :
    scoresAfter P f (soleScore k n) = soleScore k (n + 1) := by
  refine scores_ext fun j => ?_
  rw [scoresAfter_getElem, hpass, soleScore_getElem, soleScore_getElem]
  by_cases h : j = k <;> simp [h]

theorem bestCandidate_soleScore (k : Fin 128) (n : Nat) : bestCandidate (soleScore k (n + 1)) = k := by
  refine bestCandidate_eq (fun j => ?_) fun j hj => ?_
  · rw [soleScore_getElem_self, soleScore_getElem]
    split <;> omega
  · rw [soleScore_getElem_self, soleScore_getElem_of_ne hj.ne]
    omega

/-- The other scores are 0, so the margin is all that the constant's score has to exceed (R164). -/
theorem commits_soleScore (k : Fin 128) (n margin : Nat) :
    commits (soleScore k (n + 1)) margin = true ↔ margin < n + 1 := by
  rw [commits_iff_of_best (bestCandidate_soleScore k n), soleScore_getElem_self]
  constructor
  · intro h
    obtain ⟨j, hj⟩ := exists_ne k
    have hlead := h j hj
    omega
  · intro h j hj
    rw [soleScore_getElem_of_ne hj]
    omega

theorem detectOn_concat (P : Config.Params) (c : Channel) (fs : List Frame) (f : Frame) :
    detectOn P c (fs ++ [f]) = (scrDetect P (detectOn P c fs) f []).1 := by
  simp only [detectOn, List.foldl_concat]

section
variable {P : Config.Params} {c : Channel} {k : Fin 128} {fs : List Frame}

/-- Up to the margin every frame only counts: the instance keeps everything but its scores and its guess. -/
theorem detectOn_of_length_le (hpass : ∀ f ∈ fs, ∀ j, trialPasses P f j = decide (j = k))
    (hzero : c.scrStat = soleScore k 0) (hlen : fs.length ≤ c.scrConfidence) :
    ∃ g, detectOn P c fs = { c with scrStat := soleScore k fs.length, scrGuess := g } := by
  induction fs using List.reverseRecOn with
  | nil => exact ⟨c.scrGuess, by rw [List.length_nil, ← hzero]; rfl⟩
  | append_singleton fs f ih =>
    rw [List.length_append, List.length_singleton] at hlen ⊢
    obtain ⟨g, hg⟩ := ih (fun x hx => hpass x (List.mem_append_left _ hx)) (by omega)
    have hscores := scoresAfter_soleScore (hpass f (by simp)) fs.length
    have hkeep : commits (soleScore k (fs.length + 1)) c.scrConfidence = false := by
      rw [← Bool.not_eq_true, commits_soleScore]
      omega
    rw [detectOn_concat, hg, scrDetect_of_not_commits (by rwa [hscores]), hscores]
    exact ⟨_, rfl⟩

/-- The frame after the margin commits to the one constant that passes. -/
theorem detectOn_of_length_eq (hpass : ∀ f ∈ fs, ∀ j, trialPasses P f j = decide (j = k))
    (hzero : c.scrStat = soleScore k 0) (hlen : fs.length = c.scrConfidence + 1) :
    detectOn P c fs = { c with scrStat := zeroScores, scrGuess := k, scr := .known k } := by
  obtain ⟨gs, f, rfl⟩ : ∃ gs f, fs = gs ++ [f] :=
    (List.eq_nil_or_concat' fs).resolve_left (List.ne_nil_of_length_eq_add_one hlen)
  rw [List.length_append, List.length_singleton] at hlen
  obtain ⟨g, hg⟩ := detectOn_of_length_le (fun x hx => hpass x (List.mem_append_left _ hx)) hzero
    (Nat.le_of_succ_le_succ hlen.le)
  have hscores := scoresAfter_soleScore (hpass f (by simp)) gs.length
  have hcommit : commits (soleScore k (gs.length + 1)) c.scrConfidence = true := by
    rw [commits_soleScore]
    omega
  rw [detectOn_concat, hg, scrDetect_of_commits (by rwa [hscores]), hscores, bestCandidate_soleScore]

end

/-- Settles O42: up to the margin the passing constant's score counts the frames, and the next frame commits. -/
theorem detectorConverges : Obligations.DetectorConverges := by
  intro P c k fs hpass hauto hstat
  have hzero : c.scrStat = soleScore k 0 := hstat.trans (soleScore_zero k).symm
  constructor
  · intro hlen
    obtain ⟨g, hg⟩ := detectOn_of_length_le hpass hzero hlen
    rw [hg]
    exact ⟨hauto, soleScore_getElem_self k fs.length⟩
  · intro hlen
    rw [detectOn_of_length_eq hpass hzero hlen]
    exact ⟨rfl, rfl, zeroScores_eq_replicate⟩

end Sys2Proof.Machine
end

section
/-! # Proofs of family 48_frame_processors: CCH_PROC, TCH_PROC and PROC_FRAME

CCH_PROC reads the events before it only to append to them: one result, one mandatory event and at most one diagnostic,
which the frame and the effective constant alone choose. The gates are settled on that form, and in Auto it makes
PROC_FRAME agree with SCRDETECT and CCH_PROC run one after the other. -/

namespace Sys2Proof.Machine

/-! ## One mandatory event and its diagnostic (R209, R212) -/

theorem mandatory_emit {e : Event} (he : e.isMandatory = true) (es : List Event) :
    mandatory (emit es e) = mandatory es ++ [e] := by
  simp [mandatory, emit, he]

theorem onlyDiag_emitDiag {P : Config.Params} {es : List Event} {d : Diag} (h : OnlyDiag es d) :
    OnlyDiag (emitDiag P es d) d := by
  intro x hx
  unfold emitDiag at hx
  split at hx
  · rcases List.mem_append.1 hx with hold | hnew
    · exact h x hold
    · simpa using hnew
  · exact h x hx

theorem onlyDiag_emit_nil {e : Event} (he : e.isMandatory = true) (d : Diag) : OnlyDiag (emit [] e) d := by
  intro x hx
  have hx : Event.diag x = e := by simpa [emit] using hx
  rw [← hx] at he
  cases he

/-- The events of CCH_PROC run alone: its mandatory event, and no diagnostic but its own. -/
theorem events_of_emit_emitDiag {e : Event} (he : e.isMandatory = true) (P : Config.Params) (d : Diag) :
    mandatory (emitDiag P (emit [] e) d) = [e] ∧ OnlyDiag (emitDiag P (emit [] e) d) d := by
  constructor
  · rw [mandatory_emitDiag, mandatory_emit he, mandatory_nil, List.nil_append]
  · exact onlyDiag_emitDiag (onlyDiag_emit_nil he d)

/-! ## The effective constant and the sub-block index (R171, R174) -/

theorem effectiveScr_known {c : Channel} {v : Fin 128} (h : c.scr = .known v) : effectiveScr c = v := by
  rw [effectiveScr, h]

theorem effectiveScr_auto {c : Channel} (h : c.scr = .auto) : effectiveScr c = c.scrGuess := by
  rw [effectiveScr, h]

theorem decodedIndex_val (P : Config.Params) (d : Decoded) :
    (decodedIndex P d).val = 2 * (d.data.getLsbD P.idxHiPos).toNat + (d.data.getLsbD P.idxLoPos).toNat := rfl

/-! ## The gates (R171, R173) -/

section
variable {P : Config.Params} {d : Decoded}

theorem firstFailedGate_errors (herr : errorCount d ≠ 0) : firstFailedGate P d = some .channelDecodeError :=
  if_pos herr

theorem firstFailedGate_type (herr : ¬ errorCount d ≠ 0) (htype : d.data.getLsbD P.typePos ≠ P.typeData) :
    firstFailedGate P d = some .frameTypeMismatch := by
  rw [firstFailedGate, if_neg herr, if_pos htype]

theorem firstFailedGate_crc (herr : ¬ errorCount d ≠ 0) (htype : ¬ d.data.getLsbD P.typePos ≠ P.typeData)
    (hcrc : P.crcCheck d.data = false) : firstFailedGate P d = some .crcMismatch := by
  rw [firstFailedGate, if_neg herr, if_neg htype, hcrc]
  rfl

theorem firstFailedGate_none (herr : ¬ errorCount d ≠ 0) (htype : ¬ d.data.getLsbD P.typePos ≠ P.typeData)
    (hcrc : ¬ P.crcCheck d.data = false) : firstFailedGate P d = none := by
  rw [firstFailedGate, if_neg herr, if_neg htype, Bool.eq_true_of_not_eq_false hcrc]
  rfl

end

/-! ## CCH_PROC (R171) -/

section
variable {P : Config.Params} {c : Channel} {f : Frame} {d : Decoded} {r : FrameResult} {es : List Event}

/-- A frame that a gate drops: the Reassembler is reset, and at most the drop is logged (R171). -/
theorem cchProc_drops {k : DropKind} (hd : trialDecode P f (effectiveScr c) = d)
    (hrun : cchProc P c f [] = (r, es)) (hgate : firstFailedGate P d = some k) :
    r = .dropped k ∧ mandatory es = [.reasmReset] ∧ OnlyDiag es (.frameErr f.no k (effectiveScr c)) := by
  rw [cchProc_of_fail [] (hd ▸ hgate)] at hrun
  obtain ⟨rfl, rfl⟩ := Prod.mk.inj hrun
  exact ⟨rfl, events_of_emit_emitDiag rfl P _⟩

/-- A frame that passes: all 76 bits go to the Reassembler with their index, and at most that is logged (R174). -/
theorem cchProc_dispatches (hd : trialDecode P f (effectiveScr c) = d) (hrun : cchProc P c f [] = (r, es))
    (hgate : firstFailedGate P d = none) :
    r = .dispatched ∧ mandatory es = [.reasmDispatch d.data (decodedIndex P d)] ∧
      OnlyDiag es (.frameOk f.no (decodedIndex P d) (d.data.getLsbD P.st0Pos) (d.data.getLsbD P.st1Pos)
        (effectiveScr c)) := by
  subst hd
  rw [cchProc_of_pass [] hgate] at hrun
  obtain ⟨rfl, rfl⟩ := Prod.mk.inj hrun
  exact ⟨rfl, events_of_emit_emitDiag rfl P _⟩

/-- The events before CCH_PROC choose neither its result nor its mandatory event nor its diagnostic. -/
theorem cchProc_appends (P : Config.Params) (c : Channel) (f : Frame) :
    ∃ r e d, e.isMandatory = true ∧ ∀ es, cchProc P c f es = (r, emitDiag P (emit es e) d) := by
  cases h : firstFailedGate P (trialDecode P f (effectiveScr c)) with
  | none => exact ⟨_, _, _, rfl, fun es => cchProc_of_pass es h⟩
  | some k => exact ⟨_, _, _, rfl, fun es => cchProc_of_fail es h⟩

/-- After events that are all optional, CCH_PROC answers and emits what it does alone, diagnostics aside. -/
theorem cchProc_after_optional (hes : mandatory es = []) :
    (cchProc P c f es).1 = (cchProc P c f []).1 ∧
      mandatory (cchProc P c f es).2 = mandatory (cchProc P c f []).2 := by
  obtain ⟨r, e, d, he, hrun⟩ := cchProc_appends P c f
  simp only [hrun, mandatory_emitDiag, mandatory_emit he, hes, mandatory_nil, and_self]

end

/-- CCH_PROC presented by the block leaves the decoded frame and what its function answers (R171). -/
theorem exec_cchProc_of_eq {s : State} {c : Channel} {f : Frame} {d : Decoded} {r : FrameResult} {es : List Event}
    (hb : s.issuer = .block) (hc : s.inst = some c) (hu : c.band = .uhf) (hf : s.fr = some f)
    (hd : trialDecode Config.params f (effectiveScr c) = d) (hrun : cchProc Config.params c f [] = (r, es)) :
    exec (.cchProc 0) s = .next { s with df := some d, result := some (.frame r), events := es } := by
  rw [exec_cchProc hb hc hu hf, hd, hrun]

/-- Settles O43: the case split is the statement's own chain, and each branch names the outcome of the gates. -/
theorem cchProcGatesInOrder : Obligations.CchProcGatesInOrder := by
  intro s c f hb hc hu hf
  obtain ⟨d, hd⟩ : ∃ d, trialDecode Config.params f (effectiveScr c) = d := ⟨_, rfl⟩
  obtain ⟨⟨r, es⟩, hrun⟩ : ∃ p, cchProc Config.params c f [] = p := ⟨_, rfl⟩
  refine ⟨effectiveScr c, d, r, es, fun v => effectiveScr_known, effectiveScr_auto, hd.symm,
    exec_cchProc_of_eq hb hc hu hf hd hrun, ?_⟩
  -- Reducible, so that no unification evaluates the first condition, a count over 76 flags.
  with_reducible split_ifs with herr htype hcrc
  · exact cchProc_drops hd hrun (firstFailedGate_errors herr)
  · exact cchProc_drops hd hrun (firstFailedGate_type herr htype)
  · exact cchProc_drops hd hrun (firstFailedGate_crc herr htype hcrc)
  · obtain ⟨hresult, hevents⟩ := cchProc_dispatches hd hrun (firstFailedGate_none herr htype hcrc)
    exact ⟨hresult, decodedIndex Config.params d, decodedIndex_val _ _, hevents⟩

/-! ## TCH_PROC (R172) -/

/-- Settles O44: past its checks TCH_PROC reads neither the instance nor a Frame. -/
theorem tchProcIsUnsupported : Obligations.TchProcIsUnsupported := by
  intro s c hb hc
  exact asInternal_block hb hc _

/-! ## PROC_FRAME (R170) -/

section
variable {s : State} {c : Channel} {f : Frame}

/-- PROC_FRAME presented by the block leaves what its function answers, and neither Frame nor DecodedFrame (R32). -/
theorem exec_procFrame_of_eq {c' : Channel} {r : FrameResult × List Event} (hb : s.issuer = .block)
    (hc : s.inst = some c) (hf : s.fr = some f) (hrun : procFrame Config.params c f [] = (c', r)) :
    exec (.procFrame 0) s = .next { s with
      inst := some c', fr := none, df := none, result := some (.frame r.1), events := r.2 } := by
  rw [exec_procFrame hb hc hf, hrun]

/-- With a known constant PROC_FRAME is CCH_PROC, and ends the Frame (R170, R32). -/
theorem procFrame_is_cchProc {v : Fin 128} (hb : s.issuer = .block) (hc : s.inst = some c) (hf : s.fr = some f)
    (hk : c.channelKind = .control) (hu : c.band = .uhf) (hs : c.scr = .known v) :
    ∃ t, exec (.cchProc 0) s = .next t ∧ exec (.procFrame 0) s = .next { t with fr := none, df := none } := by
  refine ⟨_, exec_cchProc hb hc hu hf, ?_⟩
  rw [exec_procFrame_of_eq hb hc hf (procFrame_known hk hu hs), ← hc]

/-- In Auto PROC_FRAME is SCRDETECT and CCH_PROC on the instance that leaves, and ends the Frame (R170, R32). -/
theorem procFrame_is_scrDetect_cchProc (hb : s.issuer = .block) (hc : s.inst = some c) (hf : s.fr = some f)
    (hk : c.channelKind = .control) (hu : c.band = .uhf) (hs : c.scr = .auto) :
    ∃ t1 t2 t, exec (.scrDetect 0) s = .next t1 ∧ exec (.cchProc 0) t1 = .next t2 ∧
      exec (.procFrame 0) s = .next t ∧ mandatory t.events = mandatory t2.events ∧
      t = { t2 with fr := none, df := none, events := t.events } := by
  obtain ⟨⟨c1, es1⟩, hdetect⟩ : ∃ p, scrDetect Config.params c f [] = p := ⟨_, rfl⟩
  obtain ⟨⟨r, es⟩, halone⟩ : ∃ p, cchProc Config.params c1 f [] = p := ⟨_, rfl⟩
  obtain ⟨⟨r', es'⟩, hafter⟩ : ∃ p, cchProc Config.params c1 f es1 = p := ⟨_, rfl⟩
  obtain ⟨scr, guess, stat, hframe, -, hoptional⟩ := scrDetect_frame Config.params c f []
  have hrun := procFrame_auto (P := Config.params) (f := f) (es := []) hk hu hs
  rw [hdetect] at hframe hoptional hrun
  have hu1 : c1.band = .uhf := (congrArg Channel.band hframe).trans hu
  obtain ⟨hresult, hevents⟩ := cchProc_after_optional (P := Config.params) (c := c1) (f := f) hoptional
  rw [halone, hafter] at hresult hevents
  rw [hafter] at hrun
  refine ⟨_, _, _, exec_scrDetect_of_eq hb hc hu hf hdetect, exec_cchProc_of_eq hb rfl hu1 hf rfl halone,
    exec_procFrame_of_eq hb hc hf hrun, hevents, ?_⟩
  rw [hresult]

end

/-- Settles O45: the three ways of R170, each as the next state of PROC_FRAME. -/
theorem procFrameDispatchesOnTheConfiguration : Obligations.ProcFrameDispatchesOnTheConfiguration := by
  intro s c f hb hc hf
  refine ⟨fun hunsupported => ?_, fun hk hu v hs => procFrame_is_cchProc hb hc hf hk hu hs,
    procFrame_is_scrDetect_cchProc hb hc hf⟩
  rw [exec_procFrame_of_eq hb hc hf (procFrame_unsupported hunsupported), ← hc]

end Sys2Proof.Machine
end

section
/-! # Proofs of family 49_drive_and_host: FEED, the accessors, and PROCESS as a run of its pseudocode

The host operations other than PROCESS are settled through the ways they answer. PROCESS is settled through `DriveRuns`:
its function answers exactly the one run of R180's pseudocode, and what a run leaves is then read off by induction on
the run, with no fuel in it. -/

namespace Sys2Proof.Machine

/-! ## FEED (R182, R191) -/

theorem admitted_le (b : List Symbol) (n : Nat) : admitted b n ≤ n := Nat.min_le_left _ _

theorem take_take_admitted (b l : List Symbol) (n : Nat) :
    (l.take n).take (admitted b n) = l.take (admitted b n) := by
  rw [List.take_take, Nat.min_eq_left (admitted_le b n)]

/-- Settles O13: what FEED admits is R182's minimum, and the admitted symbols are the first of those offered. -/
theorem feedAppendsWhatFits : Obligations.FeedAppendsWhatFits := by
  intro s c n hc hn
  rw [exec_feed hc hn, take_take_admitted]
  rfl

/-- The two admitted counts add up to the one (R191). -/
theorem admitted_add (b l : List Symbol) {n m : Nat} (hn : n ≤ l.length) :
    admitted b n + admitted (b ++ l.take (admitted b n)) m = admitted b (n + m) := by
  simp only [admitted, bufLen, List.length_append, List.length_take]
  omega

/-- The symbols admitted one FEED after the other are those admitted at once: the second FEED admits some only when the
first admitted all of its own. -/
theorem take_admitted_append (b l : List Symbol) {n m : Nat} (hn : n ≤ l.length) :
    l.take (admitted b n) ++ (l.drop n).take (admitted (b ++ l.take (admitted b n)) m) =
      l.take (admitted b (n + m)) := by
  rw [← admitted_add b l hn]
  rcases Nat.lt_or_ge (admitted b n) n with hfull | hall
  · have hnone : admitted (b ++ l.take (admitted b n)) m = 0 := by
      simp only [admitted, bufLen, List.length_append, List.length_take] at hfull ⊢
      omega
    rw [hnone, List.take_zero, List.append_nil, Nat.add_zero]
  · have hn' : admitted b n = n := Nat.le_antisymm (admitted_le b n) hall
    rw [hn', List.take_add]

/-- Settles O14: the three FEEDs by their next states, whose buffers and counts agree. -/
theorem feedSplits : Obligations.FeedSplits := by
  intro s c n m hc hlen
  have hn : n ≤ s.symIn.length := by omega
  have hm : m ≤ (s.symIn.drop n).length := by rw [List.length_drop]; omega
  refine ⟨_, _, _, _, _, exec_feed hc hn, exec_feed rfl hm, exec_feed hc hlen, ?buffer,
    List.drop_drop, rfl, rfl, ?count⟩
  case buffer =>
    simp only [take_take_admitted, List.append_assoc, take_admitted_append c.buffer s.symIn hn]
  case count =>
    simp only [take_take_admitted, admitted_add c.buffer s.symIn hn]

/-! ## The accessors (R183 to R186) -/

/-- Settles O16: with the instance there and `arg` zero, each of the three is its one read or write. -/
theorem accessorsUseOneField : Obligations.AccessorsUseOneField := by
  intro s c n hc
  exact ⟨(withChannel_some hc _).trans (withZeroArg_zero _ _), (withChannel_some hc _).trans (withZeroArg_zero _ _),
    withChannel_some hc _⟩

/-- SET_SCR with a legal operand, as a whole next state (R184). -/
theorem exec_setScr_of_some {s : State} {c : Channel} {rsv : BitVec 3} {auto : Bool} {v : Nat} {x : Scr}
    (hc : s.inst = some c) (hx : scrOperand rsv auto v = some x) :
    exec (.setScr rsv auto v) s = .next { s with
      inst := some { c with scr := x, scrStat := Vector.replicate 128 0 }, result := some .ok, events := [] } := by
  refine (withChannel_some hc _).trans ?_
  simp only [hx, Channel.writeScr, zeroScores_eq_replicate, State.setInst, State.answer]

/-- SET_SCR with an illegal operand is refused (R80, R184). -/
theorem exec_setScr_of_none {s : State} {c : Channel} {rsv : BitVec 3} {auto : Bool} {v : Nat}
    (hc : s.inst = some c) (hx : scrOperand rsv auto v = none) :
    exec (.setScr rsv auto v) s = .next { s with result := some (.err .badOperand), events := [] } := by
  refine (withChannel_some hc _).trans ?_
  simp only [hx, reject, State.answer]

theorem scrOperand_reserved {rsv : BitVec 3} (h : rsv ≠ 0) (auto : Bool) (v : Nat) : scrOperand rsv auto v = none :=
  if_neg h

theorem scrOperand_known {v : Nat} (h : v < 128) : scrOperand 0 false v = some (.known ⟨v, h⟩) := dif_pos h

theorem scrOperand_known_of_ge {v : Nat} (h : 127 < v) : scrOperand 0 false v = none :=
  dif_neg (Nat.not_lt.mpr h)

theorem scrOperand_auto_of_ne {v : Nat} (h : v ≠ 0) : scrOperand 0 true v = none := if_neg h

/-- Settles O17: the operand of each clause is legal or not, and SET_SCR follows it. -/
theorem setScrWritesAndClears : Obligations.SetScrWritesAndClears := by
  intro s c rsv v hc
  exact ⟨exec_setScr_of_some hc rfl, fun h => exec_setScr_of_some hc (scrOperand_known h),
    fun h => exec_setScr_of_none hc (scrOperand_known_of_ge h),
    fun h => exec_setScr_of_none hc (scrOperand_auto_of_ne h),
    fun h a => exec_setScr_of_none hc (scrOperand_reserved h a v)⟩

/-! ## Host operations without an instance (R193) -/

/-- Settles O19: every host operation but CREATE asks for the instance before anything else. -/
theorem absentAnswersNoInstance : Obligations.AbsentAnswersNoInstance := by
  intro s habsent
  refine ⟨fun i hi hcreate hfeed => ?_, fun n => withChannel_none (s := { s with symIn := s.symIn.drop n }) habsent _⟩
  cases i with
  | create rsv kind band => exact absurd rfl (hcreate rsv kind band)
  | feed n => exact absurd rfl (hfeed n)
  | process | getScr | setScr | getScrConfidence | setScrConfidence => exact withChannel_none habsent _
  | _ => cases hi

/-! ## What the other host operations leave alone (R194) -/

/-- The two instances agree on the configuration, the synchronization, the frame number and the guess. -/
def SameSync (c c' : Channel) : Prop :=
  c'.band = c.band ∧ c'.channelKind = c.channelKind ∧ c'.syncState = c.syncState ∧ c'.lastSyncErr = c.lastSyncErr ∧
    c'.totalSyncErr = c.totalSyncErr ∧ c'.frameNo = c.frameNo ∧ c'.scrGuess = c.scrGuess

theorem sameSync_refl (c : Channel) : SameSync c c := ⟨rfl, rfl, rfl, rfl, rfl, rfl, rfl⟩

/-- The fields that FEED, SET_SCR and SET_SCR_CONFIDENCE write are none of them. -/
theorem sameSync_write (c : Channel) (v : Scr) (stat : Vector Nat 128) (n : Nat) (b : List Symbol) :
    SameSync c { c with scr := v, scrStat := stat, scrConfidence := n, buffer := b } :=
  ⟨rfl, rfl, rfl, rfl, rfl, rfl, rfl⟩

/-- From s to t no event is emitted, no symbol taken, no working record written, and no instance resynchronized. -/
structure Quiet (s t : State) : Prop where
  events : t.events = []
  symIn : t.symIn = s.symIn
  fr : t.fr = s.fr
  df : t.df = s.df
  inst : ∀ c, s.inst = some c → ∃ c', t.inst = some c' ∧ SameSync c c'

theorem quiet_answer (s : State) (r : Option Result) : Quiet s (s.answer r []) :=
  ⟨rfl, rfl, rfl, rfl, fun c hc => ⟨c, hc, sameSync_refl c⟩⟩

theorem quiet_setInst {s : State} {c c' : Channel} (hc : s.inst = some c) (h : SameSync c c') (r : Option Result) :
    Quiet s ((s.setInst c').answer r []) where
  events := rfl
  symIn := rfl
  fr := rfl
  df := rfl
  inst d hd := by
    obtain rfl : c = d := Option.some.inj (hc.symm.trans hd)
    exact ⟨c', rfl, h⟩

/-- Whatever state the outcome holds is quiet after s. -/
def NextQuiet (s : State) (o : Host.Outcome State Fault Refusal) : Prop := ∀ t, o = .next t → Quiet s t

theorem nextQuiet_next {s t : State} (h : Quiet s t) : NextQuiet s (.next t) := by
  rintro t ⟨⟩
  exact h

theorem nextQuiet_refused (s : State) (r : Refusal) : NextQuiet s (.refused r) := by
  intro t ht
  cases ht

theorem nextQuiet_reject (s : State) (k : ErrorKind) : NextQuiet s (reject s k) := nextQuiet_next (quiet_answer s _)

theorem nextQuiet_withChannel {s : State} {f : Channel → Host.Outcome State Fault Refusal}
    (hf : ∀ c, s.inst = some c → NextQuiet s (f c)) : NextQuiet s (withChannel s f) := by
  cases hc : s.inst with
  | none => rw [withChannel_none hc]; exact nextQuiet_reject s _
  | some c => rw [withChannel_some hc]; exact hf c hc

theorem nextQuiet_withZeroArg {s : State} (arg : Arg) {k : Host.Outcome State Fault Refusal} (hk : NextQuiet s k) :
    NextQuiet s (withZeroArg s arg k) := by
  unfold withZeroArg
  split
  · exact hk
  · exact nextQuiet_reject s _

/-- FEED is quiet after the symbols of its word are gone (R76, R182). -/
theorem exec_feed_nextQuiet (s : State) (n : Nat) :
    NextQuiet { s with symIn := s.symIn.drop n } (exec (.feed n) s) := by
  refine nextQuiet_withChannel fun c hc => ?_
  split
  · exact nextQuiet_refused _ _
  · exact nextQuiet_next (quiet_setInst hc (sameSync_write c _ _ _ _) _)

theorem exec_setScr_nextQuiet (s : State) (rsv : BitVec 3) (auto : Bool) (v : Nat) :
    NextQuiet s (exec (.setScr rsv auto v) s) := by
  refine nextQuiet_withChannel fun c hc => ?_
  split
  · exact nextQuiet_next (quiet_setInst hc (sameSync_write c _ _ _ _) _)
  · exact nextQuiet_reject s _

/-- The four accessors are quiet: two only answer, and two write a field that is none of the synchronization. -/
theorem exec_accessor_nextQuiet {i : Instr} (hi : i.isInternal = false) (hprocess : ∀ a, i ≠ .process a)
    (hcreate : ∀ r k b, i ≠ .create r k b) (hfeed : ∀ n, i ≠ .feed n) (s : State) : NextQuiet s (exec i s) := by
  cases i with
  | create rsv kind band => exact absurd rfl (hcreate rsv kind band)
  | feed n => exact absurd rfl (hfeed n)
  | process arg => exact absurd rfl (hprocess arg)
  | getScr arg | getScrConfidence arg =>
    exact nextQuiet_withChannel fun _ _ => nextQuiet_withZeroArg arg (nextQuiet_next (quiet_answer s _))
  | setScr rsv auto v => exact exec_setScr_nextQuiet s rsv auto v
  | setScrConfidence n =>
    exact nextQuiet_withChannel fun c hc => nextQuiet_next (quiet_setInst hc (sameSync_write c _ _ _ _) _)
  | _ => cases hi

/-- CREATE emits nothing and takes no symbol, whether its word is legal or not (R181). -/
theorem exec_create_events_symIn {s t : State} {rsv : BitVec 7} {kind band : BitVec 2}
    (h : exec (.create rsv kind band) s = .next t) : t.events = [] ∧ t.symIn = s.symIn := by
  simp only [exec, execCreate] at h
  split at h
  all_goals
    cases h
    exact ⟨rfl, rfl⟩

/-- Settles O22: CREATE apart, FEED is quiet once its symbols are gone, and the accessors are quiet. -/
theorem onlyProcessEmitsAndSynchronizes : Obligations.OnlyProcessEmitsAndSynchronizes := by
  intro s t i hi hprocess hexec
  by_cases hcreate : ∃ r k b, i = .create r k b
  · obtain ⟨r, k, b, rfl⟩ := hcreate
    obtain ⟨hevents, hsym⟩ := exec_create_events_symIn hexec
    exact ⟨hevents, fun _ => hsym, fun h => absurd rfl (h r k b)⟩
  by_cases hfeed : ∃ n, i = .feed n
  · obtain ⟨n, rfl⟩ := hfeed
    have hquiet := exec_feed_nextQuiet s n t hexec
    exact ⟨hquiet.events, fun h => absurd rfl (h n), fun _ => ⟨hquiet.fr, hquiet.df, hquiet.inst⟩⟩
  push Not at hcreate hfeed
  have hquiet := exec_accessor_nextQuiet hi hprocess hcreate hfeed s t hexec
  exact ⟨hquiet.events, fun _ => hquiet.symIn, fun _ => ⟨hquiet.fr, hquiet.df, hquiet.inst⟩⟩

/-! ## EXTRACT, by its answer (R110) -/

section
variable {c c1 : Channel} {f : Frame}

theorem eq_of_extract_noFrameYet (h : extract c = .ok (c1, .noFrameYet)) : c1 = c ∧ c.buffer.length < 160 := by
  rcases extract_spec c with ⟨hlen, he⟩ | ⟨-, -, he⟩ | ⟨-, -, -, he⟩ | ⟨-, -, -, he⟩
  all_goals
    rw [he] at h
    cases h
  exact ⟨rfl, hlen⟩

theorem eq_of_extract_syncLost (h : extract c = .ok (c1, .syncLost)) :
    c1 = { c with totalSyncErr := 1 + 2 * c.totalSyncErr } ∧ 160 ≤ c.buffer.length := by
  rcases extract_spec c with ⟨-, he⟩ | ⟨-, -, he⟩ | ⟨-, -, -, he⟩ | ⟨hlen, -, -, he⟩
  all_goals
    rw [he] at h
    cases h
  exact ⟨rfl, hlen⟩

theorem eq_of_extract_frame (h : extract c = .ok (c1, .frame f)) :
    160 ≤ c.buffer.length ∧ f = frontFrame c ∧ ∃ t, c1 = c.afterUnit t (markerErrors c.buffer 0) := by
  rcases extract_spec c with ⟨-, he⟩ | ⟨hlen, -, he⟩ | ⟨hlen, -, -, he⟩ | ⟨-, -, -, he⟩
  all_goals
    rw [he] at h
    cases h
  all_goals exact ⟨hlen, rfl, _, rfl⟩

end

/-- EXTRACT has one of its three answers (R110). -/
theorem extract_answers (c : Channel) :
    (∃ c1, extract c = .ok (c1, .noFrameYet)) ∨ (∃ c1, extract c = .ok (c1, .syncLost)) ∨
      ∃ c1 f, extract c = .ok (c1, .frame f) := by
  rcases extract_spec c with ⟨-, h⟩ | ⟨-, -, h⟩ | ⟨-, -, -, h⟩ | ⟨-, -, -, h⟩
  · exact .inl ⟨_, h⟩
  · exact .inr (.inr ⟨_, _, h⟩)
  · exact .inr (.inr ⟨_, _, h⟩)
  · exact .inr (.inl ⟨_, h⟩)

/-! ## One turn of the loop that processes a frame (R180) -/

/-- The instance after such a turn: EXTRACT took the unit at the buffer front, PROC_FRAME wrote at most the fields of
the detector, and the frame number counted on (R170, R187). -/
def Channel.afterTurn (c : Channel) (t e : Nat) (scr : Scr) (guess : Fin 128) (stat : Vector Nat 128) : Channel :=
  { c.afterUnit t e with
    scr := scr, scrGuess := guess, scrStat := stat, frameNo := nextFrameNo c.frameNo c.frameNo }

@[simp] theorem Channel.afterTurn_buffer (c : Channel) (t e : Nat) (scr : Scr) (guess : Fin 128)
    (stat : Vector Nat 128) : (c.afterTurn t e scr guess stat).buffer = c.buffer.drop 160 := rfl

@[simp] theorem Channel.afterTurn_frameNo (c : Channel) (t e : Nat) (scr : Scr) (guess : Fin 128)
    (stat : Vector Nat 128) : (c.afterTurn t e scr guess stat).frameNo = nextFrameNo c.frameNo c.frameNo := rfl

/-- Every turn that processes a frame leaves such an instance. -/
theorem turn_eq {P : Config.Params} {c c1 c2 : Channel} {f : Frame} {r : FrameResult} {es es2 : List Event}
    (h : extract c = .ok (c1, .frame f)) (hp : procFrame P c1 f es = (c2, r, es2)) :
    160 ≤ c.buffer.length ∧ ∃ t e scr guess stat,
      { c2 with frameNo := nextFrameNo c2.frameNo f.no } = c.afterTurn t e scr guess stat := by
  obtain ⟨hlen, rfl, t, rfl⟩ := eq_of_extract_frame h
  obtain ⟨scr, guess, stat, hframe, -, -⟩ :=
    procFrame_frame P (c.afterUnit t (markerErrors c.buffer 0)) (frontFrame c) es
  rw [hp] at hframe
  dsimp only at hframe
  exact ⟨hlen, t, _, scr, guess, stat, by rw [hframe]; rfl⟩

/-! ## The loop is a run of its pseudocode (R180, R189) -/

section
variable {P : Config.Params} {c c1 c2 c' : Channel} {f : Frame} {r : FrameResult} {st st' : Status}
  {es es2 es' : List Event}

theorem drainAll_of_noFrameYet (h : extract c = .ok (c1, .noFrameYet)) : drainAll P c st es = .ok (c1, st, es) := by
  obtain ⟨rfl, hlen⟩ := eq_of_extract_noFrameYet h
  rw [drainAll, bufLen, Nat.div_eq_of_lt hlen, drain]

theorem drainAll_of_syncLost (h : extract c = .ok (c1, .syncLost)) :
    drainAll P c st es = .ok ({ c1 with syncState := .notSynced }, st, emitDiag P es .syncLost) := by
  obtain ⟨-, hlen⟩ := eq_of_extract_syncLost h
  obtain ⟨n, hn⟩ := Nat.exists_eq_succ_of_ne_zero (Nat.div_pos hlen (by decide)).ne'
  rw [drainAll, bufLen, hn, Nat.succ_eq_add_one, drain, h]

/-- A turn that processes a frame uses up one of the turns that the buffer holds, and leaves enough for the rest. -/
theorem drainAll_of_frame (h : extract c = .ok (c1, .frame f)) (hp : procFrame P c1 f es = (c2, r, es2)) :
    drainAll P c st es =
      drainAll P { c2 with frameNo := nextFrameNo c2.frameNo f.no } (nextStatus st r) es2 := by
  obtain ⟨hlen, t, e, scr, guess, stat, hturn⟩ := turn_eq h hp
  have hunits : c.buffer.length / 160 = (c.buffer.drop 160).length / 160 + 1 := by
    rw [List.length_drop]
    omega
  rw [drainAll, bufLen, hunits, drain, h]
  dsimp only
  rw [hp]
  dsimp only
  rw [hturn]
  rfl

/-- The loop does what any run of its pseudocode does. -/
theorem drainAll_of_loopRuns (h : LoopRuns P c st es c' st' es') : drainAll P c st es = .ok (c', st', es') := by
  induction h with
  | noFrameYet h => exact drainAll_of_noFrameYet h
  | syncLost h => exact drainAll_of_syncLost h
  | frame h hp _ ih => exact (drainAll_of_frame h hp).trans ih

end

/-- The pseudocode of the loop ends: every turn that goes on takes 160 symbols. -/
theorem exists_loopRuns (P : Config.Params) (c : Channel) (st : Status) (es : List Event) :
    ∃ c' st' es', LoopRuns P c st es c' st' es' := by
  induction hn : c.buffer.length using Nat.strong_induction_on generalizing c st es with
  | _ n ih =>
    rcases extract_answers c with ⟨c1, h⟩ | ⟨c1, h⟩ | ⟨c1, f, h⟩
    · exact ⟨_, _, _, .noFrameYet h⟩
    · exact ⟨_, _, _, .syncLost h⟩
    · obtain ⟨⟨c2, r, es2⟩, hp⟩ : ∃ p, procFrame P c1 f es = p := ⟨_, rfl⟩
      obtain ⟨hlen, t, e, scr, guess, stat, hturn⟩ := turn_eq h hp
      have hless : (c.afterTurn t e scr guess stat).buffer.length < n := by
        rw [Channel.afterTurn_buffer, List.length_drop]
        omega
      obtain ⟨c', st', es', hrun⟩ := ih _ hless _ (nextStatus st r) es2 rfl
      exact ⟨c', st', es', .frame h hp (hturn ▸ hrun)⟩

/-! ## PROCESS is a run of its pseudocode (R180) -/

/-- PROCESS does what any run of its pseudocode does. -/
theorem process_of_driveRuns {P : Config.Params} {c c' : Channel} {st : Status} {es : List Event}
    (h : DriveRuns P c c' st es) : process P c = .ok (c', st, es) := by
  cases h with
  | notFound hs h => simp only [process, hs, h]
  | found hs h hl => simpa only [process, hs, h] using drainAll_of_loopRuns hl
  | synced hs hl => simpa only [process, hs] using drainAll_of_loopRuns hl

theorem exists_driveRuns (P : Config.Params) (c : Channel) : ∃ c' st es, DriveRuns P c c' st es := by
  cases hs : c.syncState with
  | synced =>
    obtain ⟨c', st, es, hl⟩ := exists_loopRuns P c .idle []
    exact ⟨c', st, es, .synced hs hl⟩
  | notSynced =>
    rcases syncAcq_spec c with ⟨o, -, -, -, h⟩ | ⟨-, h⟩
    · obtain ⟨c', st, es, hl⟩ := exists_loopRuns P _ .idle _
      exact ⟨c', st, es, .found hs h hl⟩
    · exact ⟨_, _, _, .notFound hs h⟩

/-- What PROCESS answers is what the pseudocode does, and the pseudocode does one thing only. -/
theorem process_eq_ok_iff {P : Config.Params} {c c' : Channel} {st : Status} {es : List Event} :
    process P c = .ok (c', st, es) ↔ DriveRuns P c c' st es := by
  refine ⟨fun h => ?_, process_of_driveRuns⟩
  obtain ⟨d, st', es', hrun⟩ := exists_driveRuns P c
  have heq := (process_of_driveRuns hrun).symm.trans h
  cases heq
  exact hrun

/-- The operation PROCESS, for a run of its pseudocode from the instance, as a whole next state (R180, R32). -/
theorem exec_process_of_driveRuns {s : State} {c c' : Channel} {st : Status} {es : List Event} (hc : s.inst = some c)
    (h : DriveRuns Config.params c c' st es) :
    exec (.process 0) s = .next { s with
      inst := some c', fr := none, df := none, result := some (.status st), events := es } := by
  refine (withChannel_some hc _).trans ((withZeroArg_zero _ _).trans ?_)
  rw [process_of_driveRuns h]
  rfl

/-- Whatever PROCESS answers comes from a run of its pseudocode. -/
theorem driveRuns_of_exec_process {s t : State} {c : Channel} (hc : s.inst = some c)
    (h : exec (.process 0) s = .next t) :
    ∃ c' st es, DriveRuns Config.params c c' st es ∧
      t = { s with inst := some c', fr := none, df := none, result := some (.status st), events := es } := by
  obtain ⟨c', st, es, hrun⟩ := exists_driveRuns Config.params c
  have heq := (exec_process_of_driveRuns hc hrun).symm.trans h
  exact ⟨c', st, es, hrun, (Host.Outcome.next.inj heq).symm⟩

/-- Settles O46: the pseudocode has a run from every instance, and PROCESS answers it. -/
theorem processRunsTheDriveLoop : Obligations.ProcessRunsTheDriveLoop := by
  intro s c hc
  obtain ⟨c', st, es, hrun⟩ := exists_driveRuns Config.params c
  exact ⟨c', st, es, hrun, exec_process_of_driveRuns hc hrun⟩

/-- Settles O47: each turn of a run is the turn the loop of PROCESS takes. -/
theorem everyRunOfTheDriveLoopIsProcess : Obligations.EveryRunOfTheDriveLoopIsProcess := by
  intro s c c' st es hc hrun
  exact exec_process_of_driveRuns hc hrun

/-! ## The mandatory events of a run (R180, R209) -/

/-- PROC_FRAME appends at most one mandatory event (R171, R172). -/
theorem mandatory_procFrame {P : Config.Params} {c c2 : Channel} {f : Frame} {r : FrameResult} {es es2 : List Event}
    (hp : procFrame P c f es = (c2, r, es2)) :
    ∃ l, mandatory es2 = mandatory es ++ l ∧ l.length ≤ 1 := by
  rcases procFrame_cases c with hcfg | ⟨hk, hu, v, hs⟩ | ⟨hk, hu, hs⟩
  · rw [procFrame_unsupported hcfg] at hp
    cases hp
    exact ⟨[], (List.append_nil _).symm, Nat.zero_le 1⟩
  · obtain ⟨r', e, d, he, hrun⟩ := cchProc_appends P c f
    rw [procFrame_known hk hu hs, hrun] at hp
    cases hp
    exact ⟨[e], by rw [mandatory_emitDiag, mandatory_emit he], le_rfl⟩
  · obtain ⟨⟨c1, es1⟩, hdetect⟩ : ∃ p, scrDetect P c f es = p := ⟨_, rfl⟩
    obtain ⟨-, -, -, -, -, hoptional⟩ := scrDetect_frame P c f es
    obtain ⟨r', e, d, he, hrun⟩ := cchProc_appends P c1 f
    rw [procFrame_auto hk hu hs, hdetect, hrun] at hp
    rw [hdetect] at hoptional
    cases hp
    exact ⟨[e], by rw [mandatory_emitDiag, mandatory_emit he, hoptional], le_rfl⟩

/-- A dispatch is mandatory, so the optional events do not count among the dispatches. -/
theorem filter_isDispatch_mandatory (es : List Event) :
    (mandatory es).filter Event.isDispatch = es.filter Event.isDispatch := by
  rw [mandatory, List.filter_filter]
  refine List.filter_congr fun e _ => ?_
  cases e <;> rfl

/-! ## What a run of the loop leaves (R180, R189) -/

section
variable {P : Config.Params} {c c' : Channel} {st st' : Status} {es es' : List Event}

/-- The loop appends at most one mandatory event for each whole unit of the buffer. -/
theorem mandatory_of_loopRuns (h : LoopRuns P c st es c' st' es') :
    ∃ l, mandatory es' = mandatory es ++ l ∧ l.length ≤ c.buffer.length / 160 := by
  induction h with
  | noFrameYet h => exact ⟨[], (List.append_nil _).symm, Nat.zero_le _⟩
  | syncLost h => exact ⟨[], by rw [mandatory_emitDiag, List.append_nil], Nat.zero_le _⟩
  | frame h hp _ ih =>
    obtain ⟨hlen, t, e, scr, guess, stat, hturn⟩ := turn_eq h hp
    obtain ⟨l1, hl1, hone⟩ := mandatory_procFrame hp
    obtain ⟨l2, hl2, hrest⟩ := ih
    rw [hturn, Channel.afterTurn_buffer, List.length_drop] at hrest
    refine ⟨l1 ++ l2, by rw [hl2, hl1, List.append_assoc], ?_⟩
    rw [List.length_append]
    omega

/-- The loop takes symbols from the front only. -/
theorem suffix_of_loopRuns (h : LoopRuns P c st es c' st' es') : c'.buffer <:+ c.buffer := by
  induction h with
  | noFrameYet h =>
    obtain ⟨rfl, -⟩ := eq_of_extract_noFrameYet h
    exact List.suffix_rfl
  | syncLost h =>
    obtain ⟨rfl, -⟩ := eq_of_extract_syncLost h
    exact List.suffix_rfl
  | frame h hp _ ih =>
    obtain ⟨-, t, e, scr, guess, stat, hturn⟩ := turn_eq h hp
    rw [hturn] at ih
    exact ih.trans (List.drop_suffix 160 _)

/-- The loop ends NotSynced, or with no whole unit left. -/
theorem drained_of_loopRuns (h : LoopRuns P c st es c' st' es') :
    c'.syncState = .notSynced ∨ c'.buffer.length < 160 := by
  induction h with
  | noFrameYet h =>
    obtain ⟨rfl, hlen⟩ := eq_of_extract_noFrameYet h
    exact .inr hlen
  | syncLost h => exact .inl rfl
  | frame _ _ _ ih => exact ih

/-- The loop keeps the configuration and the margin. -/
theorem config_of_loopRuns (h : LoopRuns P c st es c' st' es') :
    c'.band = c.band ∧ c'.channelKind = c.channelKind ∧ c'.scrConfidence = c.scrConfidence := by
  induction h with
  | noFrameYet h =>
    obtain ⟨rfl, -⟩ := eq_of_extract_noFrameYet h
    exact ⟨rfl, rfl, rfl⟩
  | syncLost h =>
    obtain ⟨rfl, -⟩ := eq_of_extract_syncLost h
    exact ⟨rfl, rfl, rfl⟩
  | frame h hp _ ih =>
    obtain ⟨-, t, e, scr, guess, stat, hturn⟩ := turn_eq h hp
    rw [hturn] at ih
    exact ih

end

/-! ## What a PROCESS leaves (R189, R190) -/

theorem eq_of_syncAcq_notFound {c c1 : Channel} (h : syncAcq c = .ok (c1, .notFound)) :
    c1 = { c with buffer := c.buffer.drop (c.buffer.length - 167) } := by
  rcases syncAcq_spec c with ⟨o, -, -, -, he⟩ | ⟨-, he⟩
  all_goals
    rw [he, Except.ok.injEq, Prod.mk.injEq] at h
    obtain ⟨hc, hr⟩ := h
  · cases hr
  · exact hc.symm

/-- After a found pair the loop starts at that pair, with both counters zero (R101). -/
theorem eq_of_syncAcq_found {c c1 : Channel} (h : syncAcq c = .ok (c1, .found)) :
    ∃ o, o + 168 ≤ c.buffer.length ∧ pairErrors c.buffer o ≤ 1 ∧
      c1 = { c with buffer := c.buffer.drop o, lastSyncErr := 0, totalSyncErr := 0 } := by
  rcases syncAcq_spec c with ⟨o, hlen, ho, -, he⟩ | ⟨-, he⟩
  all_goals
    rw [he, Except.ok.injEq, Prod.mk.injEq] at h
    obtain ⟨hc, hr⟩ := h
  · exact ⟨o, hlen, ho, hc.symm⟩
  · cases hr

section
variable {P : Config.Params} {c c' : Channel} {st : Status} {es : List Event}

theorem suffix_of_driveRuns (h : DriveRuns P c c' st es) : c'.buffer <:+ c.buffer := by
  cases h with
  | notFound _ h =>
    rw [eq_of_syncAcq_notFound h]
    dsimp only
    exact List.drop_suffix _ _
  | found _ h hl =>
    obtain ⟨o, -, -, rfl⟩ := eq_of_syncAcq_found h
    exact (suffix_of_loopRuns hl).trans (List.drop_suffix o _)
  | synced _ hl => exact suffix_of_loopRuns hl

theorem drained_of_driveRuns (h : DriveRuns P c c' st es) : c'.syncState = .notSynced ∨ c'.buffer.length < 160 := by
  cases h with
  | notFound hs h =>
    rw [eq_of_syncAcq_notFound h]
    exact .inl hs
  | found _ _ hl => exact drained_of_loopRuns hl
  | synced _ hl => exact drained_of_loopRuns hl

theorem config_of_driveRuns (h : DriveRuns P c c' st es) :
    c'.band = c.band ∧ c'.channelKind = c.channelKind ∧ c'.scrConfidence = c.scrConfidence := by
  cases h with
  | notFound _ h =>
    rw [eq_of_syncAcq_notFound h]
    exact ⟨rfl, rfl, rfl⟩
  | found _ h hl =>
    obtain ⟨o, -, -, rfl⟩ := eq_of_syncAcq_found h
    exact (config_of_loopRuns hl :)
  | synced _ hl => exact config_of_loopRuns hl

/-- Beside mandatory events r that hold no dispatch, there are at most as many dispatches as further mandatory ones. -/
theorem length_dispatches_le {l r : List Event} (h : mandatory es = r ++ l) (hr : r.filter Event.isDispatch = []) :
    (es.filter Event.isDispatch).length ≤ l.length := by
  rw [← filter_isDispatch_mandatory, h, List.filter_append, hr, List.nil_append]
  exact List.length_filter_le _ _

/-- At most one dispatch for each whole unit that was in the buffer (R189). -/
theorem dispatches_of_driveRuns (h : DriveRuns P c c' st es) :
    (es.filter Event.isDispatch).length ≤ c.buffer.length / 160 := by
  cases h with
  | notFound => exact Nat.zero_le _
  | found _ h hl =>
    obtain ⟨o, -, -, rfl⟩ := eq_of_syncAcq_found h
    obtain ⟨l, hevents, hlen⟩ := mandatory_of_loopRuns hl
    rw [mandatory_emitDiag] at hevents
    have hdispatches := length_dispatches_le hevents rfl
    rw [List.length_drop] at hlen
    omega
  | synced _ hl =>
    obtain ⟨l, hevents, hlen⟩ := mandatory_of_loopRuns hl
    exact (length_dispatches_le hevents rfl).trans hlen

/-- A PROCESS from NotSynced that emits nothing mandatory found no pair: at most 167 symbols stay (R101, R241). -/
theorem length_le_of_driveRuns_notSynced (h : DriveRuns P c c' st es) (hs : c.syncState = .notSynced)
    (hes : mandatory es = []) : c'.buffer.length ≤ 167 := by
  cases h with
  | notFound _ h =>
    rw [eq_of_syncAcq_notFound h]
    simp only [List.length_drop]
    omega
  | found _ _ hl =>
    obtain ⟨l, hevents, -⟩ := mandatory_of_loopRuns hl
    rw [hes, mandatory_emitDiag, mandatory_emit_reset] at hevents
    simp at hevents
  | synced hs' => rw [hs] at hs'; cases hs'

end

/-- Settles O48: each clause is a fact about the run that PROCESS is. -/
theorem processDrainsTheBuffer : Obligations.ProcessDrainsTheBuffer := by
  intro s c hc
  obtain ⟨c', st, es, hrun⟩ := exists_driveRuns Config.params c
  obtain ⟨hband, hkind, hmargin⟩ := config_of_driveRuns hrun
  exact ⟨_, c', exec_process_of_driveRuns hc hrun, rfl, drained_of_driveRuns hrun, suffix_of_driveRuns hrun,
    dispatches_of_driveRuns hrun, length_le_of_driveRuns_notSynced hrun, hband, hkind, hmargin, rfl, rfl⟩

/-- PROCESS on a Synced instance with no whole unit left does nothing. -/
theorem driveRuns_of_drained (P : Config.Params) {c : Channel} (hs : c.syncState = .synced)
    (hlen : c.buffer.length < 160) : DriveRuns P c c .idle [] :=
  .synced hs (.noFrameYet (extract_of_short hlen))

/-- While Absent PROCESS leaves no instance (R193). -/
theorem inst_of_exec_process_absent {s t : State} (hs : s.inst = none) (h : exec (.process 0) s = .next t) :
    t.inst = none := by
  have heq := (withChannel_none hs _).symm.trans h
  cases heq
  exact hs

/-- Settles O49: the first PROCESS left no whole unit, so the second is the run that does nothing. -/
theorem processIsIdempotentWhenDrained : Obligations.ProcessIsIdempotentWhenDrained := by
  intro s t c' hexec hc' hsynced
  cases hs : s.inst with
  | none =>
    rw [inst_of_exec_process_absent hs hexec] at hc'
    cases hc'
  | some c =>
    obtain ⟨d, st, es, hrun, rfl⟩ := driveRuns_of_exec_process hs hexec
    obtain rfl : d = c' := Option.some.inj hc'
    have hlen : d.buffer.length < 160 := (drained_of_driveRuns hrun).resolve_left (by simp [hsynced])
    exact exec_process_of_driveRuns rfl (driveRuns_of_drained _ hsynced hlen)

/-! ## The frame number (R187) -/

/-- The frame number b is the frame number a, k frames later: unknown as before, or counted on modulo 200. -/
def CountsOn (a b : FrameNo) (k : Nat) : Prop :=
  (a = .unknown → b = .unknown) ∧ ∀ n : Fin 200, a = .known n → ∃ m : Fin 200, b = .known m ∧ m.val = (n.val + k) % 200

theorem countsOn_zero (a : FrameNo) : CountsOn a a 0 :=
  ⟨id, fun n hn => ⟨n, hn, (Nat.mod_eq_of_lt n.isLt).symm⟩⟩

/-- A frame that carried the tracked number counts it on by 1, before k others do. -/
theorem CountsOn.next {a b : FrameNo} {k : Nat} (h : CountsOn (nextFrameNo a a) b k) : CountsOn a b (k + 1) := by
  obtain ⟨hunknown, hknown⟩ := h
  refine ⟨fun ha => hunknown (by rw [ha, nextFrameNo]), fun n hn => ?_⟩
  obtain ⟨m, hm, hval⟩ := hknown _ (by rw [hn, nextFrameNo])
  refine ⟨m, hm, ?_⟩
  rw [hval]
  simp only [frameNoMod]
  omega

/-- The loop counts the units that it takes. -/
theorem countsOn_of_loopRuns {P : Config.Params} {c c' : Channel} {st st' : Status} {es es' : List Event}
    (h : LoopRuns P c st es c' st' es') :
    CountsOn c.frameNo c'.frameNo ((c.buffer.length - c'.buffer.length) / 160) := by
  induction h with
  | noFrameYet h =>
    obtain ⟨rfl, -⟩ := eq_of_extract_noFrameYet h
    simpa using countsOn_zero _
  | syncLost h =>
    obtain ⟨rfl, -⟩ := eq_of_extract_syncLost h
    simpa using countsOn_zero _
  | @frame c _ _ c' _ _ _ _ _ _ _ h hp hl ih =>
    obtain ⟨hlen, t, e, scr, guess, stat, hturn⟩ := turn_eq h hp
    have hle := (suffix_of_loopRuns hl).length_le
    rw [hturn, Channel.afterTurn_buffer, List.length_drop] at hle
    rw [hturn, Channel.afterTurn_buffer, Channel.afterTurn_frameNo, List.length_drop] at ih
    have hunits :
        (c.buffer.length - c'.buffer.length) / 160 = (c.buffer.length - 160 - c'.buffer.length) / 160 + 1 := by
      omega
    rw [hunits]
    exact ih.next

/-- Settles O51: a PROCESS that starts Synced is a run of the loop, which counts the units that it takes. -/
theorem frameNumberCountsFrames : Obligations.FrameNumberCountsFrames := by
  intro s t c c' hc hsynced hexec hc'
  obtain ⟨d, st, es, hrun, rfl⟩ := driveRuns_of_exec_process hc hexec
  obtain rfl : d = c' := Option.some.inj hc'
  cases hrun with
  | notFound hs | found hs => rw [hsynced] at hs; cases hs
  | synced _ hl => exact countsOn_of_loopRuns hl

end Sys2Proof.Machine
end

section
/-! # Proofs of family 60_exceptions: refused words, lost synchronization, unsupported configurations, diagnostics

What PROCESS does in each of these cases is read off the run of its pseudocode. Diagnostics are settled by a simulation:
a run under one policy is, turn by turn, a run under any other, whose events differ in diagnostics only. -/

namespace Sys2Proof.Machine

/-! ## Between two operations (R214, R224) -/

/-- Settles O3: with no word waiting `step` does not take its other branch. -/
theorem nothingHappensBetweenOperations : Obligations.NothingHappensBetweenOperations := by
  intro s hnone
  rw [step, hnone]

/-! ## CREATE with an illegal word (R80, R201, R215) -/

theorem bandOfCode_of_ge {b : BitVec 2} (h : 2 ≤ b.toNat) : bandOfCode b = none := by
  unfold bandOfCode
  split
  case h_3 => rfl
  all_goals omega

theorem channelKindOfCode_of_ge {k : BitVec 2} (h : 2 ≤ k.toNat) : channelKindOfCode k = none := by
  unfold channelKindOfCode
  split
  case h_3 => rfl
  all_goals omega

theorem eq_code_of_band_lt {b : BitVec 2} (h : b.toNat < 2) : ∃ x : Band, b = x.code := by
  rcases (by omega : b.toNat = 0 ∨ b.toNat = 1) with h | h
  · exact ⟨.vhf, BitVec.eq_of_toNat_eq h⟩
  · exact ⟨.uhf, BitVec.eq_of_toNat_eq h⟩

theorem eq_code_of_channelKind_lt {k : BitVec 2} (h : k.toNat < 2) : ∃ x : ChannelKind, k = x.code := by
  rcases (by omega : k.toNat = 0 ∨ k.toNat = 1) with h | h
  · exact ⟨.control, BitVec.eq_of_toNat_eq h⟩
  · exact ⟨.traffic, BitVec.eq_of_toNat_eq h⟩

/-- An invalid code comes before a reserved bit (R215). -/
theorem createOperands_of_invalid {rsv : BitVec 7} {kind band : BitVec 2} (h : 2 ≤ kind.toNat ∨ 2 ≤ band.toNat) :
    createOperands rsv kind band = .error .configError := by
  rcases h with h | h
  · rw [createOperands, channelKindOfCode_of_ge h]
    cases bandOfCode band <;> rfl
  · rw [createOperands, bandOfCode_of_ge h]

theorem createOperands_of_reserved {rsv : BitVec 7} (h : rsv ≠ 0) (b : Band) (k : ChannelKind) :
    createOperands rsv k.code b.code = .error .badOperand := by
  rw [createOperands, bandOfCode_code, channelKindOfCode_code]
  exact if_neg h

/-- CREATE with illegal operands only answers the error. -/
theorem exec_create_of_error {rsv : BitVec 7} {kind band : BitVec 2} {e : ErrorKind}
    (h : createOperands rsv kind band = .error e) (s : State) :
    exec (.create rsv kind band) s = .next { s with result := some (.err e), events := [] } := by
  simp only [exec, execCreate, h]
  rfl

/-- Settles O12: the operands are refused before any state is written. -/
theorem createRefusesIllegalWords : Obligations.CreateRefusesIllegalWords := by
  refine ⟨rfl, fun s rsv kind band => ⟨fun hinvalid => ?_, fun hkind hband hrsv => ?_⟩⟩
  · exact exec_create_of_error (createOperands_of_invalid hinvalid) s
  · obtain ⟨b, rfl⟩ := eq_code_of_band_lt hband
    obtain ⟨k, rfl⟩ := eq_code_of_channelKind_lt hkind
    exact exec_create_of_error (createOperands_of_reserved hrsv b k) s

/-! ## Lost synchronization (R203) -/

/-- Settles O50: the run is one turn, in which EXTRACT answers SyncLost. -/
theorem syncLossKeepsTheBuffer : Obligations.SyncLossKeepsTheBuffer := by
  intro s c hc hsynced hlen hbad htotal
  have hlost : LoopRuns Config.params c .idle [] _ .idle _ := .syncLost (extract_of_lost hlen hbad htotal)
  exact ⟨_, mandatory_emitDiag _ _ _, onlyDiag_emitDiag_nil _ _, exec_process_of_driveRuns hc (.synced hsynced hlost)⟩

/-! ## Unsupported configurations (R207) -/

/-- The configuration is one that PROC_FRAME answers Unsupported for (R170). -/
def Unsupported (c : Channel) : Prop := c.channelKind = .traffic ∨ c.band = .vhf

/-- The setting, the guess and the scores are the same. -/
def SameDetector (c c' : Channel) : Prop := c'.scr = c.scr ∧ c'.scrGuess = c.scrGuess ∧ c'.scrStat = c.scrStat

section
variable {P : Config.Params} {c c1 c2 c' : Channel} {f : Frame} {r : FrameResult} {st st' : Status}
  {es es2 es' : List Event}

/-- A turn in an unsupported configuration consumes its unit and does nothing else with it (R170, R172). -/
theorem unsupported_turn (hcfg : Unsupported c) (h : extract c = .ok (c1, .frame f))
    (hp : procFrame P c1 f es = (c2, r, es2)) :
    160 ≤ c.buffer.length ∧ r = .unsupported ∧ es2 = es ∧ ∃ t e,
      { c2 with frameNo := nextFrameNo c2.frameNo f.no } = c.afterTurn t e c.scr c.scrGuess c.scrStat := by
  obtain ⟨hlen, rfl, t, rfl⟩ := eq_of_extract_frame h
  rw [procFrame_unsupported (c := c.afterUnit t _) hcfg] at hp
  cases hp
  exact ⟨hlen, rfl, rfl, t, _, rfl⟩

/-- What the loop does in an unsupported configuration: it reports exactly that it consumed a unit (R207). -/
theorem loopRuns_unsupported (h : LoopRuns P c st es c' st' es') (hcfg : Unsupported c) :
    SameDetector c c' ∧ mandatory es' = mandatory es ∧
      ((st' = .unsupported ∧ c'.buffer.length + 160 ≤ c.buffer.length) ∨ (st' = st ∧ c'.buffer = c.buffer)) := by
  induction h with
  | noFrameYet h =>
    obtain ⟨rfl, -⟩ := eq_of_extract_noFrameYet h
    exact ⟨⟨rfl, rfl, rfl⟩, rfl, .inr ⟨rfl, rfl⟩⟩
  | syncLost h =>
    obtain ⟨rfl, -⟩ := eq_of_extract_syncLost h
    exact ⟨⟨rfl, rfl, rfl⟩, mandatory_emitDiag _ _ _, .inr ⟨rfl, rfl⟩⟩
  | frame h hp _ ih =>
    obtain ⟨hlen, rfl, rfl, t, e, hturn⟩ := unsupported_turn hcfg h hp
    rw [hturn] at ih
    obtain ⟨hsame, hes, hend⟩ := ih hcfg
    refine ⟨hsame, hes, .inl ?_⟩
    rw [Channel.afterTurn_buffer, List.length_drop] at hend
    rcases hend with ⟨hst, hless⟩ | ⟨hst, hkept⟩
    · exact ⟨hst, by omega⟩
    · refine ⟨hst, ?_⟩
      rw [hkept, List.length_drop]
      omega

/-- From an instance whose first unit is good the loop consumes that unit, so it reports the configuration. -/
theorem loopRuns_unsupported_of_good (h : LoopRuns P c st es c' st' es') (hcfg : Unsupported c)
    (hgood : extract c = .ok (c1, .frame f)) : st' = .unsupported := by
  cases h with
  | noFrameYet h => rw [hgood] at h; cases h
  | syncLost h => rw [hgood] at h; cases h
  | frame h hp hl =>
    obtain ⟨-, rfl, rfl, t, e, hturn⟩ := unsupported_turn hcfg h hp
    rw [hturn] at hl
    obtain ⟨-, -, ⟨hst, -⟩ | ⟨hst, -⟩⟩ := loopRuns_unsupported hl hcfg
    all_goals exact hst

end

/-- The marker errors at the front of a buffer that starts at offset o of another are the other's at o. -/
theorem markerErrors_drop (b : List Symbol) (o : Nat) : markerErrors (b.drop o) 0 = markerErrors b o := by
  simp only [markerErrors, List.getElem?_drop, Nat.zero_add]

/-- The first unit after a found pair is good: its marker alone is within the pair's budget (R101, R110). -/
theorem extract_of_found {c c1 : Channel} (h : syncAcq c = .ok (c1, .found)) :
    ∃ c2 f, extract { c1 with syncState := .synced, frameNo := .unknown } = .ok (c2, .frame f) := by
  obtain ⟨o, hlen, hpair, rfl⟩ := eq_of_syncAcq_found h
  refine ⟨_, _, extract_of_good ?_ ?_⟩
  · simp only [List.length_drop]
    omega
  · simp only [markerErrors_drop]
    exact (Nat.le_add_right _ _).trans hpair

/-- What PROCESS does in an unsupported configuration: nothing to the detector, and then the two cases of R207. -/
theorem driveRuns_unsupported {P : Config.Params} {c c' : Channel} {st : Status} {es : List Event}
    (h : DriveRuns P c c' st es) (hcfg : Unsupported c) :
    SameDetector c c' ∧
    (c.syncState = .notSynced → (st = .unsupported ∧ mandatory es = [.reasmReset]) ∨
      (st = .idle ∧ mandatory es = [] ∧ c'.syncState = .notSynced)) ∧
    (c.syncState = .synced → mandatory es = [] ∧
      ((st = .unsupported ∧ c'.buffer.length + 160 ≤ c.buffer.length) ∨ (st = .idle ∧ c'.buffer = c.buffer))) := by
  cases h with
  | notFound hs h =>
    rw [eq_of_syncAcq_notFound h]
    exact ⟨⟨rfl, rfl, rfl⟩, fun _ => .inr ⟨rfl, rfl, hs⟩, fun hs' => (nomatch hs.symm.trans hs')⟩
  | found hs h hl =>
    obtain ⟨c2, f, hgood⟩ := extract_of_found h
    obtain ⟨o, -, -, rfl⟩ := eq_of_syncAcq_found h
    obtain ⟨hsame, hes, -⟩ := loopRuns_unsupported hl hcfg
    rw [mandatory_emitDiag, mandatory_emit_reset, mandatory_nil, List.nil_append] at hes
    exact ⟨hsame, fun _ => .inl ⟨loopRuns_unsupported_of_good hl hcfg hgood, hes⟩,
      fun hs' => (nomatch hs.symm.trans hs')⟩
  | synced hs hl =>
    obtain ⟨hsame, hes, hend⟩ := loopRuns_unsupported hl hcfg
    exact ⟨hsame, fun hs' => (nomatch hs.symm.trans hs'), fun _ => ⟨hes, hend⟩⟩

/-- Settles O52: the answer of PROCESS is the end of its run. -/
theorem unsupportedConfigurationIsReported : Obligations.UnsupportedConfigurationIsReported := by
  intro s t c c' hc hcfg hexec hc'
  obtain ⟨d, st, es, hrun, rfl⟩ := driveRuns_of_exec_process hc hexec
  obtain rfl : d = c' := Option.some.inj hc'
  obtain ⟨⟨hscr, hguess, hstat⟩, hnotSynced, hsynced⟩ := driveRuns_unsupported hrun hcfg
  simp only [Option.some.injEq, Result.status.injEq]
  exact ⟨hscr, hguess, hstat, hnotSynced, hsynced⟩

/-! ## Diagnostics (R83, R212) -/

/-- The parameters with another policy of diagnostics. -/
abbrev withDiag (P : Config.Params) (e : List Event → Diag → Bool) : Config.Params := { P with emitsDiag := e }

section
variable (P : Config.Params) (e : List Event → Diag → Bool)

theorem trialDecode_withDiag (f : Frame) (k : Fin 128) : trialDecode (withDiag P e) f k = trialDecode P f k := by
  rw [trialDecode_eq_chDec, trialDecode_eq_chDec]

theorem firstFailedGate_withDiag (d : Decoded) : firstFailedGate (withDiag P e) d = firstFailedGate P d := by
  rw [firstFailedGate, firstFailedGate]

theorem decodedIndex_withDiag (d : Decoded) : decodedIndex (withDiag P e) d = decodedIndex P d := by
  rw [decodedIndex, decodedIndex]

theorem scoresAfter_withDiag (f : Frame) (stat : Vector Nat 128) :
    scoresAfter (withDiag P e) f stat = scoresAfter P f stat := by
  simp only [scoresAfter, trialPasses, trialDecode_withDiag]

/-- CCH_PROC appends the same mandatory event under any policy. -/
theorem cchProc_withDiag (c : Channel) (f : Frame) :
    ∃ r x d, x.isMandatory = true ∧ ∀ es fs, cchProc P c f es = (r, emitDiag P (emit es x) d) ∧
      cchProc (withDiag P e) c f fs = (r, emitDiag (withDiag P e) (emit fs x) d) := by
  cases h : firstFailedGate P (trialDecode P f (effectiveScr c)) with
  | none =>
    have h' := h
    rw [← firstFailedGate_withDiag P e, ← trialDecode_withDiag P e] at h'
    refine ⟨_, _, _, rfl, fun es fs => ⟨cchProc_of_pass es h, ?_⟩⟩
    rw [cchProc_of_pass fs h', trialDecode_withDiag, decodedIndex_withDiag]
  | some k =>
    have h' := h
    rw [← firstFailedGate_withDiag P e, ← trialDecode_withDiag P e] at h'
    exact ⟨_, _, _, rfl, fun es fs => ⟨cchProc_of_fail es h, cchProc_of_fail fs h'⟩⟩

/-- SCRDETECT leaves the same instance under any policy. -/
theorem scrDetect_withDiag (c : Channel) (f : Frame) (es fs : List Event) :
    (scrDetect (withDiag P e) c f fs).1 = (scrDetect P c f es).1 := by
  cases h : commits (scoresAfter P f c.scrStat) c.scrConfidence
  · rw [scrDetect_of_not_commits h, scrDetect_of_not_commits (by rwa [scoresAfter_withDiag]), scoresAfter_withDiag]
  · rw [scrDetect_of_commits h, scrDetect_of_commits (by rwa [scoresAfter_withDiag]), scoresAfter_withDiag]

end

section
variable {P : Config.Params} {c c2 c' : Channel} {f : Frame} {r : FrameResult} {st st' : Status}
  {es es2 es' fs : List Event}

/-- PROC_FRAME under another policy: the same instance and result, and the same mandatory events. -/
theorem procFrame_withDiag (e : List Event → Diag → Bool) (hp : procFrame P c f es = (c2, r, es2))
    (hes : mandatory es = mandatory fs) :
    ∃ fs2, procFrame (withDiag P e) c f fs = (c2, r, fs2) ∧ mandatory es2 = mandatory fs2 := by
  rcases procFrame_cases c with hcfg | ⟨hk, hu, v, hs⟩ | ⟨hk, hu, hs⟩
  · rw [procFrame_unsupported hcfg] at hp
    cases hp
    exact ⟨fs, procFrame_unsupported hcfg, hes⟩
  · obtain ⟨r', x, d, hx, hrun⟩ := cchProc_withDiag P e c f
    obtain ⟨hcch, hcch'⟩ := hrun es fs
    rw [procFrame_known hk hu hs, hcch] at hp
    cases hp
    refine ⟨_, by rw [procFrame_known hk hu hs, hcch'], ?_⟩
    rw [mandatory_emitDiag, mandatory_emitDiag, mandatory_emit hx, mandatory_emit hx, hes]
  · obtain ⟨⟨c1, es1⟩, hdetect⟩ : ∃ p, scrDetect P c f es = p := ⟨_, rfl⟩
    obtain ⟨⟨c1', fs1⟩, hdetect'⟩ : ∃ p, scrDetect (withDiag P e) c f fs = p := ⟨_, rfl⟩
    have hsame := scrDetect_withDiag P e c f es fs
    obtain ⟨-, -, -, -, -, hoptional⟩ := scrDetect_frame P c f es
    obtain ⟨-, -, -, -, -, hoptional'⟩ := scrDetect_frame (withDiag P e) c f fs
    rw [hdetect] at hsame hoptional
    rw [hdetect'] at hsame hoptional'
    obtain rfl : c1' = c1 := hsame
    obtain ⟨r', x, d, hx, hrun⟩ := cchProc_withDiag P e c1' f
    obtain ⟨hcch, hcch'⟩ := hrun es1 fs1
    rw [procFrame_auto hk hu hs, hdetect, hcch] at hp
    cases hp
    refine ⟨_, by rw [procFrame_auto hk hu hs, hdetect', hcch'], ?_⟩
    rw [mandatory_emitDiag, mandatory_emitDiag, mandatory_emit hx, mandatory_emit hx, hoptional, hoptional', hes]

/-- A run of the loop is a run under another policy, turn by turn. -/
theorem loopRuns_withDiag (e : List Event → Diag → Bool) (h : LoopRuns P c st es c' st' es')
    (hes : mandatory es = mandatory fs) :
    ∃ fs', LoopRuns (withDiag P e) c st fs c' st' fs' ∧ mandatory es' = mandatory fs' := by
  induction h generalizing fs with
  | noFrameYet h => exact ⟨fs, .noFrameYet h, hes⟩
  | syncLost h => exact ⟨_, .syncLost h, by rw [mandatory_emitDiag, mandatory_emitDiag, hes]⟩
  | frame h hp _ ih =>
    obtain ⟨fs2, hp', hes2⟩ := procFrame_withDiag e hp hes
    obtain ⟨fs', hl', hes'⟩ := ih hes2
    exact ⟨fs', .frame h hp' hl', hes'⟩

/-- A run of PROCESS is a run under another policy: acquisition emits the same reset before its diagnostic. -/
theorem driveRuns_withDiag (e : List Event → Diag → Bool) (h : DriveRuns P c c' st es) :
    ∃ fs, DriveRuns (withDiag P e) c c' st fs ∧ mandatory es = mandatory fs := by
  cases h with
  | notFound hs h => exact ⟨[], .notFound hs h, rfl⟩
  | found hs h hl =>
    obtain ⟨fs, hl', hes⟩ := loopRuns_withDiag e hl ((mandatory_emitDiag _ _ _).trans (mandatory_emitDiag _ _ _).symm)
    exact ⟨fs, .found hs h hl', hes⟩
  | synced hs hl =>
    obtain ⟨fs, hl', hes⟩ := loopRuns_withDiag e hl (fs := []) rfl
    exact ⟨fs, .synced hs hl', hes⟩

end

/-- Settles O53: diagnostics aside, the first answer is also an answer under the second policy, which has only one. -/
theorem diagnosticsChangeNothing : Obligations.DiagnosticsChangeNothing := by
  intro P e c c1 c2 st1 st2 es1 es2 h1 h2
  obtain ⟨fs, hrun, hes⟩ := driveRuns_withDiag e (process_eq_ok_iff.1 h1)
  have heq := (process_of_driveRuns hrun).symm.trans h2
  cases heq
  exact ⟨rfl, rfl, hes⟩

end Sys2Proof.Machine
end

section
/-! # Proofs of family 70_reset_and_hazards: the state before the first operation -/

namespace Sys2Proof.Machine

/-- Settles O8: there is no instance yet, so that nothing is asked of one. -/
theorem resetMeetsTheInvariant : Obligations.ResetMeetsTheInvariant :=
  ⟨rfl, ⟨rfl, rfl, rfl, nofun⟩⟩

end Sys2Proof.Machine
end

section
/-! # Proofs of the other statements: a step, the words of the vectors, and delivery from end to end

The forward stages undo the receive stages one by one, so the trial decode of a unit that they built is its plain block,
with no flag set. Each such unit is then one turn of the loop that dispatches its block. -/

namespace Sys2Proof.Machine

/-! ## A step (R61, R76) -/

/-- Settles O1: the word is taken, and running it is running what it decodes to. -/
theorem stepRunsTheDecodedOperation : Obligations.StepRunsTheDecodedOperation := by
  intro s w rest i hop hdecode
  rw [step_cons hop, runWord, hdecode]

/-- Settles O6: thirteen fixed words, each decoded. -/
theorem specWordsDecode : Obligations.SpecWordsDecode := by
  unfold Obligations.SpecWordsDecode
  decide

/-! ## A raw frame unit (R70) -/

theorem length_frameUnit (h : Symbol) (x : FrameBits) : (frameUnit h x).length = 160 := by
  simp [frameUnit, marker]

theorem drop_frameUnit_append (h : Symbol) (x : FrameBits) (rest : List Symbol) :
    (frameUnit h x ++ rest).drop 160 = rest :=
  List.drop_left' (length_frameUnit h x)

/-- The marker of a unit at the buffer front is perfect. -/
theorem markerErrors_frameUnit (h : Symbol) (x : FrameBits) (rest : List Symbol) :
    markerErrors (frameUnit h x ++ rest) 0 = 0 := by
  simp [markerErrors, frameUnit, marker]

/-- The payload of a unit at the buffer front, as EXTRACT reads it. -/
theorem payload_frameUnit (h : Symbol) (x : FrameBits) (rest : List Symbol) :
    bitsOfList 152 (((frameUnit h x ++ rest).drop 8).take 152) = x := by
  have hdrop : (frameUnit h x ++ rest).drop 8 = listOfBits x ++ rest := by simp [frameUnit, marker]
  rw [hdrop, List.take_left' (length_listOfBits x), bitsOfList_listOfBits]

/-! ## Decoding what the transmitter built (C4) -/

theorem deinterleave_interleave (T : Equiv.Perm (Fin 152)) (x : FrameBits) : deinterleave T (interleave T x) = x :=
  deinterleave_symm_deinterleave T.symm x

/-- Each receive stage undoes its forward stage; what is left is the plain block, with no flag set. -/
theorem trialDecode_forwardPayload (P : Config.Params) (k : Fin 128) (b : DecodedBits) (no : FrameNo) :
    trialDecode P { data := diffDec1 (forwardPayload P k b), no := no } k = { data := b, err := 0, no := no } := by
  rw [trialDecode_eq_chDec, forwardPayload, diffDec1_lineEncode, descramble_descramble, diffDec2_precode,
    deinterleave_interleave, chDec_chEnc]

/-- A block typed Data that passes the CRC passes every gate when no flag is set (R171). -/
theorem firstFailedGate_of_errorFree {P : Config.Params} {b : DecodedBits} (no : FrameNo)
    (htype : b.getLsbD P.typePos = P.typeData) (hcrc : P.crcCheck b = true) :
    firstFailedGate P { data := b, err := 0, no := no } = none := by
  have hcount : errorCount { data := b, err := 0, no := no } = 0 := (countOnes_eq_zero _).2 rfl
  exact firstFailedGate_none (not_not.2 hcount) (not_not.2 htype) (by rw [hcrc]; decide)

/-- The index of a plain block (R174). -/
def plainIndex (P : Config.Params) (b : DecodedBits) : Fin 4 :=
  subBlockIndex (b.getLsbD P.idxHiPos) (b.getLsbD P.idxLoPos)

/-- CCH_PROC on a unit that the transmitter built under the effective constant: its plain block is dispatched. -/
theorem cchProc_forwardPayload {P : Config.Params} {c : Channel} {k : Fin 128} (hk : effectiveScr c = k)
    {b : DecodedBits} (htype : b.getLsbD P.typePos = P.typeData) (hcrc : P.crcCheck b = true) (no : FrameNo)
    (es : List Event) :
    cchProc P c { data := diffDec1 (forwardPayload P k b), no := no } es =
      (.dispatched, emitDiag P (emit es (.reasmDispatch b (plainIndex P b)))
        (.frameOk no (plainIndex P b) (b.getLsbD P.st0Pos) (b.getLsbD P.st1Pos) k)) := by
  subst hk
  have hdecode := trialDecode_forwardPayload P (effectiveScr c) b no
  have hgate := firstFailedGate_of_errorFree no htype hcrc
  rw [← hdecode] at hgate
  rw [cchProc_of_pass es hgate, hdecode]
  rfl

/-! ## Delivery (E7) -/

/-- The instance is a Control/UHF one preset to the constant k, with no frame number and no marker error behind it. -/
structure Delivering (c : Channel) (k : Fin 128) : Prop where
  control : c.channelKind = .control
  uhf : c.band = .uhf
  scr : c.scr = .known k
  frameNo : c.frameNo = .unknown
  last : c.lastSyncErr = 0
  total : c.totalSyncErr = 0

theorem Delivering.setBuffer {c : Channel} {k : Fin 128} (h : Delivering c k) (b : List Symbol) :
    Delivering { c with buffer := b } k :=
  { h with }

/-- EXTRACT on a unit that the transmitter built takes the unit and changes nothing else. -/
theorem extract_frameUnit {c : Channel} {k : Fin 128} (hc : Delivering c k) {h : Symbol}
    {x : FrameBits} {rest : List Symbol} (hbuffer : c.buffer = frameUnit h x ++ rest) :
    extract c = .ok ({ c with buffer := rest }, .frame { data := diffDec1 x, no := .unknown }) := by
  have hmarker : markerErrors c.buffer 0 = 0 := by rw [hbuffer, markerErrors_frameUnit]
  have hlen : 160 ≤ c.buffer.length := by
    rw [hbuffer, List.length_append, length_frameUnit]
    exact Nat.le_add_right _ _
  have hfront : frontFrame c = { data := diffDec1 x, no := .unknown } := by
    rw [frontFrame, hbuffer, payload_frameUnit, hc.frameNo]
  have hafter : c.afterUnit 0 0 = { c with buffer := rest } := by
    simp only [Channel.afterUnit, hbuffer, drop_frameUnit_append, hc.last, hc.total]
  have hextract := extract_of_good hlen (by rw [hmarker, hc.last]; exact Nat.zero_le 1)
  rwa [hmarker, hfront, hafter] at hextract

/-- One turn on such a unit: its block is dispatched, and the loop goes on behind the unit. -/
theorem loopRuns_of_frameUnit {P : Config.Params} {c c' : Channel} {k : Fin 128} (hc : Delivering c k)
    {b : DecodedBits} {h : Symbol} {rest : List Symbol}
    (hbuffer : c.buffer = frameUnit h (forwardPayload P k b) ++ rest)
    (htype : b.getLsbD P.typePos = P.typeData) (hcrc : P.crcCheck b = true) (st : Status) (es : List Event) :
    ∃ es2, mandatory es2 = mandatory es ++ [.reasmDispatch b (plainIndex P b)] ∧
      ∀ st' es', LoopRuns P { c with buffer := rest } st es2 c' st' es' → LoopRuns P c st es c' st' es' := by
  have hrest := hc.setBuffer rest
  have hcch := cchProc_forwardPayload (P := P) (effectiveScr_known hrest.scr) htype hcrc .unknown es
  have hprocess := (procFrame_known hrest.control hrest.uhf hrest.scr).trans (congrArg _ hcch)
  refine ⟨_, ?_, fun st' es' hrun => .frame (extract_frameUnit hc hbuffer) hprocess hrun⟩
  rw [mandatory_emitDiag, mandatory_emit_dispatch]

/-- Two units back to back are a found pair at the buffer front (R101). -/
theorem syncAcq_frameUnits {c : Channel} {h1 h2 : Symbol} {x1 x2 : FrameBits}
    (hbuffer : c.buffer = frameUnit h1 x1 ++ frameUnit h2 x2) :
    syncAcq c = .ok ({ c with lastSyncErr := 0, totalSyncErr := 0 }, .found) := by
  have hlen : 0 + 168 ≤ c.buffer.length := by
    rw [hbuffer, List.length_append, length_frameUnit, length_frameUnit]
    decide
  have hsecond : markerErrors c.buffer 160 = 0 := by
    rw [← markerErrors_drop, hbuffer, drop_frameUnit_append, ← List.append_nil (frameUnit h2 x2),
      markerErrors_frameUnit]
  have hpair : pairErrors c.buffer 0 ≤ 1 := by
    rw [pairErrors, hsecond, hbuffer, markerErrors_frameUnit]
    exact Nat.zero_le 1
  exact syncAcq_of_earliest hlen hpair fun j hj => absurd hj (Nat.not_lt_zero j)

/-- Settles O54: acquisition at the first unit, a turn for each of the two, and a last turn that finds no unit. -/
theorem endToEndDelivery : Obligations.EndToEndDelivery := by
  intro P k b1 b2 h1 h2 c hcontrol huhf hsync hscr hbuffer htype1 hcrc1 htype2 hcrc2
  have hstart : Delivering
      { c with lastSyncErr := 0, totalSyncErr := 0, syncState := .synced, frameNo := .unknown } k :=
    ⟨hcontrol, huhf, hscr, rfl, rfl, rfl⟩
  obtain ⟨es1, hes1, hturn1⟩ := loopRuns_of_frameUnit hstart hbuffer htype1 hcrc1 .idle
    (emitDiag P (emit [] .reasmReset) .syncAcquired)
  obtain ⟨es2, hes2, hturn2⟩ := loopRuns_of_frameUnit (hstart.setBuffer _) (List.append_nil _).symm htype2 hcrc2
    .idle es1
  have hrun := hturn1 _ _ (hturn2 _ _ (.noFrameYet (extract_of_short (Nat.zero_lt_succ 159))))
  refine ⟨es2, plainIndex P b1, plainIndex P b2, process_of_driveRuns (.found hsync (syncAcq_frameUnits hbuffer) hrun),
    ?_, rfl, rfl⟩
  rw [hes2, hes1, mandatory_emitDiag, mandatory_emit_reset]
  rfl

end Sys2Proof.Machine
end
